-- ==== Sys2Proof/Word.lean ====
section
/-! DEFINITION. The word types of the CH415 head and the fixed-size table that holds its register groups.

Bit vectors stand only where the manual treats a value as bits or lets it wrap: bytes of a frame, samples, the cycle
counter, the epoch, the switch token. Counts, positions and lanes are natural numbers. -/

namespace Sys2Proof

/-- One byte of a host frame, a control payload or a register of an endpoint. -/
abbrev Byte := BitVec 8

/-- One 16-bit sample of a lane (00_scope, section 1). -/
abbrev Sample := BitVec 16

/-- The 16-bit name of a plan; it wraps from 65,535 to 0 (R64). -/
abbrev Epoch := BitVec 16

/-- The 8-bit switch token; it wraps from 255 to 0 (R65). -/
abbrev Token := BitVec 8

/-- A value of the 32-bit cycle counter; it wraps from 4,294,967,295 to 0 (R86). -/
abbrev Stamp := BitVec 32

/-- One of the host ports H0 to H3. -/
abbrev Port := Fin 4

/-- The number 0 to 31 that names a stream record (R1). -/
abbrev Handle := Fin 32

/-- A table of exactly `n` like things, plain data: the register groups of the head. -/
inductive Tab (α : Type) : Nat → Type where
  | nil : Tab α 0
  | cons {n : Nat} (a : α) (t : Tab α n) : Tab α (n + 1)
  deriving DecidableEq, Repr

namespace Tab

variable {α β : Type}

/-- The element at an index. -/
def get : {n : Nat} → Tab α n → Fin n → α
  | _, .cons a _, ⟨0, _⟩ => a
  | _, .cons _ t, ⟨k + 1, h⟩ => t.get ⟨k, Nat.lt_of_succ_lt_succ h⟩

/-- The table with one element replaced. -/
def set : {n : Nat} → Tab α n → Fin n → α → Tab α n
  | _, .cons _ t, ⟨0, _⟩, b => .cons b t
  | _, .cons a t, ⟨k + 1, h⟩, b => .cons a (t.set ⟨k, Nat.lt_of_succ_lt_succ h⟩ b)

/-- The table whose element at `i` is `f i`. -/
def ofFn : {n : Nat} → (Fin n → α) → Tab α n
  | 0, _ => .nil
  | _ + 1, f => .cons (f 0) (ofFn fun i => f i.succ)

/-- The table with every element equal to `a`. -/
def fill (n : Nat) (a : α) : Tab α n := ofFn fun _ => a

/-- Every element replaced by its image. -/
def map (f : α → β) : {n : Nat} → Tab α n → Tab β n
  | _, .nil => .nil
  | _, .cons a t => .cons (f a) (t.map f)

/-- The elements in index order. -/
def toList : {n : Nat} → Tab α n → List α
  | _, .nil => []
  | _, .cons a t => a :: t.toList

/-- The table of the first `n` elements of a list, short lists filled with `d`. -/
def ofList (d : α) : (n : Nat) → List α → Tab α n
  | 0, _ => .nil
  | n + 1, [] => .cons d (ofList d n [])
  | n + 1, a :: l => .cons a (ofList d n l)

/-- The indices of a table, ascending. -/
def indices (n : Nat) : List (Fin n) := (ofFn fun i : Fin n => i).toList

end Tab

end Sys2Proof
end

