-- ==== Sys2Proof/Config.lean ====
section
/-! DEFINITION. What the part number fixes: the sizes, thresholds and wire constants of the CH415.

Nothing here is left open by the manual, so no constant of this file is without a body. -/

namespace Sys2Proof.Config

/-- Lanes of a pass, 0 to 63 (00_scope, section 1). -/
abbrev lanes : Nat := 64

/-- The highest endpoint position (00_scope, section 1). -/
abbrev maxPosition : Nat := 15

/-- The most entries of a draft (R42). -/
abbrev draftSize : Nat := 8

/-- The most lines of an endpoint's map (R35, R37). -/
abbrev mapSize : Nat := 16

/-- The most remote requests a port holds (R139). -/
abbrev remoteSize : Nat := 4

/-- Entries of a port queue (R154). -/
abbrev queueSize : Nat := 16

/-- The most events of a port queue (R154). -/
abbrev eventCap : Nat := 12

/-- The limit of the lost-event counter (R161). -/
abbrev lostMax : Nat := 255

/-- Cycles in one unit of a lease (R169). -/
abbrev leaseUnit : Nat := 1024

/-- Cycle starts between the start of a bring-up wait and the first SEEK (R105). -/
abbrev bringUpWait : Nat := 32

/-- Cycle starts between two SEEK tries (R105). -/
abbrev seekGap : Nat := 8

/-- SEEK tries made for one position (R106). -/
abbrev seekTries : Nat := 3

/-- Clean trails that prove a JOINING endpoint (R108). -/
abbrev quietTarget : Nat := 16

/-- Short trails that make a break (R110). -/
abbrev breakTrails : Nat := 3

/-- Resync attempts before the position is given up (R118). -/
abbrev resyncAttempts : Nat := 3

/-- Resends of one map in one PREPARE (R69). -/
abbrev maxResends : Nat := 2

/-- Trails of the settle window (R78). -/
abbrev settleTrails : Nat := 8

/-- Points one charge adds to a hop score (R128). -/
abbrev hopCharge : Nat := 8

/-- Ceiling of a hop score (R128). -/
abbrev hopCeiling : Nat := 255

/-- Score at which a HEALTHY hop becomes DEGRADED (R129). -/
abbrev degradeAt : Nat := 96

/-- Score at which a DEGRADED hop becomes ISOLATED (R129). -/
abbrev isolateAt : Nat := 192

/-- Score at or below which a DEGRADED hop becomes HEALTHY (R129). -/
abbrev healAt : Nat := 63

/-- Consecutive clean cycles that end an isolation (R131). -/
abbrev recoverRun : Nat := 256

/-- The largest lane limit stored from an identity record (R106, R114). -/
abbrev limitMax : Nat := 32

/-- First register byte of an endpoint's map window (R140). -/
abbrev mapWindow : Nat := 0xE0

/-- First byte of a request frame (R180, Table 11-3). -/
abbrev syncByte : Byte := 0xA5#8

/-- First byte of a read transaction (R180, Table 11-3). -/
abbrev readByte : Byte := 0x5A#8

/-- Status byte of the empty frame (R180). -/
abbrev emptyStatus : Byte := 0xFF#8

end Sys2Proof.Config
end

