-- ==== Sys2Proof/Machine/Crc.lean ====
section
/-! DEFINITION. The check codes of the host frames and of the chain blocks (R180, R181), and the byte-order helpers of
the layouts (R179). -/

namespace Sys2Proof.Machine

/-- The bits of a byte, most significant first. -/
def bitsMsbFirst (b : Byte) : List Bool :=
  [b.getLsbD 7, b.getLsbD 6, b.getLsbD 5, b.getLsbD 4, b.getLsbD 3, b.getLsbD 2, b.getLsbD 1, b.getLsbD 0]

/-- One bit of a cyclic check whose generator, less its leading term, is `poly`. -/
def crcBit {w : Nat} (poly crc : BitVec w) (bit : Bool) : BitVec w :=
  if crc.msb != bit then (crc <<< 1) ^^^ poly else crc <<< 1

/-- A cyclic check over bytes, each taken most significant bit first, without final inversion. -/
def crcBytes {w : Nat} (poly init : BitVec w) (bytes : List Byte) : BitVec w :=
  (bytes.flatMap bitsMsbFirst).foldl (crcBit poly) init

/-- CRC-8 of the host frames: x⁸ + x² + x + 1, initial value 00h (R180). -/
def hostCrc (bytes : List Byte) : Byte := crcBytes 0x07#8 0x00#8 bytes

/-- The 16-bit check of lead and answer blocks: x¹⁶ + x¹² + x⁵ + 1, initial value FFFFh (R181). -/
def blockCheck (bytes : List Byte) : BitVec 16 := crcBytes 0x1021#16 0xFFFF#16 bytes

/-- The 8-bit check of a trail entry: x⁸ + x⁵ + x³ + x² + x + 1, initial value FFh (R181). -/
def trailCheck (bytes : List Byte) : Byte := crcBytes 0x2F#8 0xFF#8 bytes

/-- The low byte of a number. -/
def byteOf (n : Nat) : Byte := BitVec.ofNat 8 n

/-- Two bytes, most significant first (R179). -/
def bytes16 (v : BitVec 16) : List Byte := [v.extractLsb' 8 8, v.extractLsb' 0 8]

/-- Four bytes, most significant first (R179). -/
def bytes32 (v : BitVec 32) : List Byte :=
  [v.extractLsb' 24 8, v.extractLsb' 16 8, v.extractLsb' 8 8, v.extractLsb' 0 8]

/-- Three bytes, most significant first, of a count below 2^24 (lease remaining, Table 11-5). -/
def bytes24 (n : Nat) : List Byte := [byteOf (n / 65536), byteOf (n / 256), byteOf n]

/-- The 16-bit field whose bytes, most significant first, are `hi` and `lo` (R179). -/
def word16 (hi lo : Byte) : BitVec 16 := hi ++ lo

/-- The 32-bit field of four bytes, most significant first (R179). -/
def word32 (a b c d : Byte) : BitVec 32 := a ++ b ++ c ++ d

/-- A yes or no field (R179). -/
def yesNo (b : Bool) : Byte := if b then 0x01#8 else 0x00#8

/-- A list of bytes filled with 00h to `n` bytes (R179, unused bytes). -/
def padTo (n : Nat) (l : List Byte) : List Byte := (l ++ List.replicate n 0#8).take n

end Sys2Proof.Machine
end

