-- ==== Sys2Proof/Syntax.lean ====
section
/-! DEFINITION. The commands of the head: one constructor of `Instr` for each row of spec/opcode_table.json.

A request of a host carries its port and its body, the fields of Table 11-4 as the bytes of the frame give them
(`Sized.wrongSize` is a body of another size, step 5 of R173). An event of the chain carries what the chain brings:
the up pass. Where the manual lets two blocks take one moment in either order, the order is an operand of the event. -/

namespace Sys2Proof

/-- A request body: of the size Table 11-4 gives its request code, or of another size (R173, step 5). -/
inductive Sized (α : Type) where
  | sized (a : α)
  | wrongSize (body : List Byte)
  deriving DecidableEq, Repr

/-- Body of DRAFT_OPEN: source; sink count; four sink slots; lanes; label (Table 11-4). -/
structure OpenArgs where
  source : Byte
  sinkCount : Byte
  slots : Tab Byte 4
  lanes : Byte
  label : BitVec 16
  deriving DecidableEq, Repr

/-- Body of DRAFT_RESIZE: handle; lanes. -/
structure ResizeArgs where
  handle : Byte
  lanes : Byte
  deriving DecidableEq, Repr

/-- Body of DRAFT_SET: setting; value. -/
structure SetArgs where
  setting : Byte
  value : Byte
  deriving DecidableEq, Repr

/-- Body of REMOTE_READ: target; address; length; tag. -/
structure ReadArgs where
  target : Byte
  address : Byte
  length : Byte
  tag : Byte
  deriving DecidableEq, Repr

/-- Body of REMOTE_WRITE: target (FFh for ALL); address; length; tag; the data bytes the frame carries. -/
structure WriteArgs where
  target : Byte
  address : Byte
  length : Byte
  tag : Byte
  data : List Byte
  deriving DecidableEq, Repr

/-- Body of SUBSCRIBE: position; class set, bit k for class k. -/
structure SubscribeArgs where
  position : Byte
  classes : Byte
  deriving DecidableEq, Repr

/-- The up pass as the head receives it (R95): the 64 up lanes, the 13 bytes of the answer block field and the 6-byte
trail entries in their order of arrival, farthest first. -/
structure UpPass where
  lanes : Tab Sample 64
  answer : Tab Byte 13
  trail : List (Tab Byte 6)
  deriving DecidableEq, Repr

/-- The five blocks that read each trail independently of one another (section 5.5). -/
inductive Reader where
  | hop | chain | switch | fetch | remote
  deriving DecidableEq, Repr

/-- Which comes first when an entry into RESYNCING and a batch formation meet (R56). -/
inductive Meet where
  | resyncFirst | batchFirst
  deriving DecidableEq, Repr

/-- The order in which one trail arrival is taken: the readers in turn, readers not named following in the order of
`Reader`, and the outcome of the meeting of R56. -/
structure TrailOrder where
  readers : List Reader
  meet : Meet
  deriving DecidableEq, Repr

/-- What falls at one cycle start after the increment of the counter: each port's lease (R171), the switch cycle (R75),
the probe count (R113), the control slot (R135, R141), and the lead block with the gate and mute set (R87, R101). -/
inductive CycleAct where
  | lease (p : Port) | switch | probe | slot | lead
  deriving DecidableEq, Repr

/-- The commands of the CH415: the 40 rows of the table of operations and events. -/
inductive Instr where
  /-- DEVICE_RESET (R86): the reset line goes low. -/
  | deviceReset
  /-- CYCLE_START (R87): the next cycle begins; `mediaIn` is the media frame that ends at it. -/
  | cycleStart (mediaIn : Tab Sample 64) (order : List CycleAct)
  /-- TRAIL_ARRIVAL (R95): a complete up pass is received within the window. -/
  | trailArrival (up : UpPass) (order : TrailOrder)
  /-- RECEIVE_WINDOW_CLOSE (R95): the window closes without a complete up pass. -/
  | receiveWindowClose (order : TrailOrder)
  /-- FRAME_ERROR (R173): a write transaction that fails step 2; `bytes` are the bytes of the transaction. -/
  | frameError (p : Port) (bytes : List Byte)
  /-- BAD_REQUEST (R173): a well-formed frame whose code is none of the 21. -/
  | badRequest (p : Port) (code : Byte) (body : List Byte)
  /-- RESPONSE_READ (R174): a read transaction in which the host clocks out `clocks` bytes. -/
  | responseRead (p : Port) (clocks : Nat)
  | attach (p : Port) (lease : Sized Byte)
  | detach (p : Port) (body : Sized Unit)
  | portStatus (p : Port) (body : Sized Unit)
  | draftOpen (p : Port) (args : Sized OpenArgs)
  | draftClose (p : Port) (handle : Sized Byte)
  | draftResize (p : Port) (args : Sized ResizeArgs)
  | draftSet (p : Port) (args : Sized SetArgs)
  | draftDrop (p : Port) (index : Sized Byte)
  | draftClear (p : Port) (body : Sized Unit)
  | draftView (p : Port) (first : Sized Byte)
  | commit (p : Port) (flags : Sized Byte)
  | withdraw (p : Port) (body : Sized Unit)
  | streamInfo (p : Port) (handle : Sized Byte)
  | listStreams (p : Port) (first : Sized Byte)
  | planInfo (p : Port) (body : Sized Unit)
  | chainInfo (p : Port) (position : Sized Byte)
  | chainRestart (p : Port) (body : Sized Unit)
  | remoteRead (p : Port) (args : Sized ReadArgs)
  | remoteWrite (p : Port) (args : Sized WriteArgs)
  | subscribe (p : Port) (args : Sized SubscribeArgs)
  | readQueue (p : Port) (n : Sized Byte)
  /-- LEASE_EXPIRY (R172): the lease count of a port reaches 0. -/
  | leaseExpiry (p : Port)
  /-- PROBE_DUE (R113): the probe count reaches the probe interval. -/
  | probeDue
  /-- BRINGUP_SEEK (R105): the bring-up wait or gap ends and a SEEK goes out. -/
  | bringupSeek
  /-- SWITCH_CYCLE (R75): the next plan becomes active. -/
  | switchCycle
  /-- BATCH_FORMATION (R56). -/
  | batchFormation
  /-- ISOLATION_RECOVERY (R131): the clean run of an ISOLATED hop has reached 256. -/
  | isolationRecovery (hop : Nat)
  /-- BREAK_DETECTED (R110): the break count has reached 3. -/
  | breakDetected (meet : Meet)
  /-- QUIET_COUNT_COMPLETE (R108): the quiet count of a JOINING entry stands at 16. -/
  | quietCountComplete (position : Nat)
  /-- RESYNC_ENTRY (R116). -/
  | resyncEntry
  /-- PREPARE_TIMEOUT (R70): the progress count has reached the prepare timeout. -/
  | prepareTimeout (meet : Meet)
  /-- SETTLE_END (R79): the settle count has reached 0. -/
  | settleEnd (meet : Meet)
  /-- RESET_RELEASE (R86): the reset line returns high. -/
  | resetRelease
  deriving DecidableEq, Repr

end Sys2Proof
end

