-- ==== Sys2Proof/Machine/Frame.lean ====
section
/-! DEFINITION. Request frames and their bodies as bytes (Tables 11-3 and 11-4, R173, R180). -/

namespace Sys2Proof.Machine

/-- What the bytes of one write transaction are (R173 steps 2 and 3 apart from the request code; R180). -/
inductive Frame where
  /-- The transaction fails step 2 of R173. -/
  | bad
  /-- A good frame with its request code and body. -/
  | good (code : Byte) (body : List Byte)
  deriving DecidableEq, Repr

/-- The bytes of the frame with a request code and a body: sync, length, code, body, CRC-8 (Table 11-3). -/
def frameBytes (code : Byte) (body : List Byte) : List Byte :=
  let head := Config.syncByte :: byteOf (body.length + 4) :: code :: body
  head ++ [hostCrc head]

/-- R173 step 2 and R180: the frame a transaction holds. The first byte must be the sync byte, the length byte must lie
in 4–32 and equal the number of bytes, and the last byte must be the CRC-8 of the bytes before it. -/
def parseFrame : List Byte → Frame
  | sync :: len :: code :: rest =>
    if sync = Config.syncByte ∧ 4 ≤ len.toNat ∧ len.toNat ≤ 32 ∧ rest.length + 3 = len.toNat
        ∧ rest.getLast? = some (hostCrc (sync :: len :: code :: rest.dropLast)) then
      .good code rest.dropLast
    else .bad
  | _ => .bad

/-- A body of one byte. -/
def oneByte : List Byte → Sized Byte
  | [b] => .sized b
  | l => .wrongSize l

/-- An empty body. -/
def noBytes : List Byte → Sized Unit
  | [] => .sized ()
  | l => .wrongSize l

/-- The body of DRAFT_OPEN, 9 bytes. -/
def openBody : List Byte → Sized OpenArgs
  | [src, n, a, b, c, d, lanes, l1, l0] =>
    .sized { source := src, sinkCount := n, slots := .cons a (.cons b (.cons c (.cons d .nil))), lanes := lanes,
             label := word16 l1 l0 }
  | l => .wrongSize l

/-- The body of DRAFT_RESIZE, 2 bytes. -/
def resizeBody : List Byte → Sized ResizeArgs
  | [h, n] => .sized { handle := h, lanes := n }
  | l => .wrongSize l

/-- The body of DRAFT_SET, 2 bytes. -/
def setBody : List Byte → Sized SetArgs
  | [k, v] => .sized { setting := k, value := v }
  | l => .wrongSize l

/-- The body of REMOTE_READ, 4 bytes. -/
def readBody : List Byte → Sized ReadArgs
  | [t, a, n, g] => .sized { target := t, address := a, length := n, tag := g }
  | l => .wrongSize l

/-- The body of REMOTE_WRITE, 5 to 8 bytes. -/
def writeBody : List Byte → Sized WriteArgs
  | t :: a :: n :: g :: d0 :: rest =>
    if rest.length ≤ 3 then .sized { target := t, address := a, length := n, tag := g, data := d0 :: rest }
    else .wrongSize (t :: a :: n :: g :: d0 :: rest)
  | l => .wrongSize l

/-- The body of SUBSCRIBE, 2 bytes. -/
def subscribeBody : List Byte → Sized SubscribeArgs
  | [p, c] => .sized { position := p, classes := c }
  | l => .wrongSize l

/-- The bytes of a body, given the bytes of its fields. -/
def bodyBytes {α : Type} (f : α → List Byte) : Sized α → List Byte
  | .sized a => f a
  | .wrongSize l => l

end Sys2Proof.Machine
end

