-- ==== Sys2Proof/WellFormed.lean ====
section
/-! DEFINITION. Which terms of `Instr` the outside can send: a body marked of the wrong size is of a wrong size and fits a
frame, a FRAME_ERROR transaction fails step 2 of R173, a BAD_REQUEST code is none of the 21, a hop or position named by
an event is 1 to 15. `exec` is total and does not look at this check. -/

namespace Sys2Proof

/-- A body of the wrong size still fits a frame of at most 32 bytes (R173) and has not the size `ok` accepts. -/
def Sized.fits {α : Type} (ok : Nat → Bool) : Sized α → Bool
  | .sized _ => true
  | .wrongSize l => decide (l.length ≤ 28) && !ok l.length

/-- Whether a body has the size of its request code (R173, step 5). -/
def Sized.isSized {α : Type} : Sized α → Bool
  | .sized _ => true
  | .wrongSize _ => false

/-- The sizes Table 11-4 gives REMOTE_WRITE. -/
def writeSize (n : Nat) : Bool := decide (5 ≤ n) && decide (n ≤ 8)

/-- Positions of the chain table and hops of the chain: 1 to 15. -/
def isPosition (p : Nat) : Bool := decide (1 ≤ p) && decide (p ≤ Config.maxPosition)

/-- The terms that stand for something the outside or the chain can do. -/
def Instr.wellFormed : Instr → Bool
  | .deviceReset => true
  | .cycleStart _ _ => true
  | .trailArrival _ _ => true
  | .receiveWindowClose _ => true
  | .frameError _ bytes => decide (Machine.parseFrame bytes = .bad) && decide (bytes.head? ≠ some Config.readByte)
  | .badRequest _ code body => decide (body.length ≤ 28) && (decide (code.toNat = 0) || decide (21 < code.toNat))
  | .responseRead _ _ => true
  | .attach _ b => b.fits (· == 1)
  | .detach _ b => b.fits (· == 0)
  | .portStatus _ b => b.fits (· == 0)
  | .draftOpen _ b => b.fits (· == 9)
  | .draftClose _ b => b.fits (· == 1)
  | .draftResize _ b => b.fits (· == 2)
  | .draftSet _ b => b.fits (· == 2)
  | .draftDrop _ b => b.fits (· == 1)
  | .draftClear _ b => b.fits (· == 0)
  | .draftView _ b => b.fits (· == 1)
  | .commit _ b => b.fits (· == 1)
  | .withdraw _ b => b.fits (· == 0)
  | .streamInfo _ b => b.fits (· == 1)
  | .listStreams _ b => b.fits (· == 1)
  | .planInfo _ b => b.fits (· == 0)
  | .chainInfo _ b => b.fits (· == 1)
  | .chainRestart _ b => b.fits (· == 0)
  | .remoteRead _ b => b.fits (· == 4)
  | .remoteWrite _ b =>
    match b with
    | .sized a => decide (1 ≤ a.data.length) && decide (a.data.length ≤ 4)
    | .wrongSize _ => b.fits writeSize
  | .subscribe _ b => b.fits (· == 2)
  | .readQueue _ b => b.fits (· == 1)
  | .leaseExpiry _ => true
  | .probeDue => true
  | .bringupSeek => true
  | .switchCycle => true
  | .batchFormation => true
  | .isolationRecovery h => isPosition h
  | .breakDetected _ => true
  | .quietCountComplete p => isPosition p
  | .resyncEntry => true
  | .prepareTimeout _ => true
  | .settleEnd _ => true
  | .resetRelease => true

end Sys2Proof
end

