-- ==== Sys2Proof/Decode.lean ====
section
/-! DEFINITION. From the bytes of one transaction of a host port to the command it is, and back (R173, R180, Table 11-4).

No row of spec/opcode_table.json gives bits, so no table word spells a command. -/

namespace Sys2Proof

open Machine

/-- The command of a good request frame at a port: codes 01h ATTACH to 15h READ_QUEUE in the order of Table 10-4;
any other code is BAD_REQUEST (R173, step 3). -/
def decodeRequest (p : Port) (code : Byte) (body : List Byte) : Instr :=
  match code.toNat with
  | 0x01 => .attach p (oneByte body)
  | 0x02 => .detach p (noBytes body)
  | 0x03 => .portStatus p (noBytes body)
  | 0x04 => .draftOpen p (openBody body)
  | 0x05 => .draftClose p (oneByte body)
  | 0x06 => .draftResize p (resizeBody body)
  | 0x07 => .draftSet p (setBody body)
  | 0x08 => .draftDrop p (oneByte body)
  | 0x09 => .draftClear p (noBytes body)
  | 0x0A => .draftView p (oneByte body)
  | 0x0B => .commit p (oneByte body)
  | 0x0C => .withdraw p (noBytes body)
  | 0x0D => .streamInfo p (oneByte body)
  | 0x0E => .listStreams p (oneByte body)
  | 0x0F => .planInfo p (noBytes body)
  | 0x10 => .chainInfo p (oneByte body)
  | 0x11 => .chainRestart p (noBytes body)
  | 0x12 => .remoteRead p (readBody body)
  | 0x13 => .remoteWrite p (writeBody body)
  | 0x14 => .subscribe p (subscribeBody body)
  | 0x15 => .readQueue p (oneByte body)
  | _ => .badRequest p code body

/-- The command one transaction of host port `p` is (R173): first byte 5Ah a response read, any other first byte a
request write, whose frame is good or fails step 2. -/
def decodeTransaction (p : Port) (bytes : List Byte) : Instr :=
  if bytes.head? = some Config.readByte then .responseRead p (bytes.length - 1)
  else
    match parseFrame bytes with
    | .bad => .frameError p bytes
    | .good code body => decodeRequest p code body

/-- The port and bytes of the transaction that is a command of a host; none for an event that is no transaction. -/
def encode : Instr → Option (Port × List Byte)
  | .frameError p bytes => some (p, bytes)
  | .badRequest p code body => some (p, frameBytes code body)
  | .responseRead p n => some (p, Config.readByte :: List.replicate n 0#8)
  | .attach p b => some (p, frameBytes 0x01#8 (bodyBytes (fun x => [x]) b))
  | .detach p b => some (p, frameBytes 0x02#8 (bodyBytes (fun _ => []) b))
  | .portStatus p b => some (p, frameBytes 0x03#8 (bodyBytes (fun _ => []) b))
  | .draftOpen p b => some (p, frameBytes 0x04#8 (bodyBytes
      (fun a => a.source :: a.sinkCount :: a.slots.toList ++ a.lanes :: bytes16 a.label) b))
  | .draftClose p b => some (p, frameBytes 0x05#8 (bodyBytes (fun x => [x]) b))
  | .draftResize p b => some (p, frameBytes 0x06#8 (bodyBytes (fun a => [a.handle, a.lanes]) b))
  | .draftSet p b => some (p, frameBytes 0x07#8 (bodyBytes (fun a => [a.setting, a.value]) b))
  | .draftDrop p b => some (p, frameBytes 0x08#8 (bodyBytes (fun x => [x]) b))
  | .draftClear p b => some (p, frameBytes 0x09#8 (bodyBytes (fun _ => []) b))
  | .draftView p b => some (p, frameBytes 0x0A#8 (bodyBytes (fun x => [x]) b))
  | .commit p b => some (p, frameBytes 0x0B#8 (bodyBytes (fun x => [x]) b))
  | .withdraw p b => some (p, frameBytes 0x0C#8 (bodyBytes (fun _ => []) b))
  | .streamInfo p b => some (p, frameBytes 0x0D#8 (bodyBytes (fun x => [x]) b))
  | .listStreams p b => some (p, frameBytes 0x0E#8 (bodyBytes (fun x => [x]) b))
  | .planInfo p b => some (p, frameBytes 0x0F#8 (bodyBytes (fun _ => []) b))
  | .chainInfo p b => some (p, frameBytes 0x10#8 (bodyBytes (fun x => [x]) b))
  | .chainRestart p b => some (p, frameBytes 0x11#8 (bodyBytes (fun _ => []) b))
  | .remoteRead p b => some (p, frameBytes 0x12#8 (bodyBytes (fun a => [a.target, a.address, a.length, a.tag]) b))
  | .remoteWrite p b => some (p, frameBytes 0x13#8 (bodyBytes
      (fun a => a.target :: a.address :: a.length :: a.tag :: a.data) b))
  | .subscribe p b => some (p, frameBytes 0x14#8 (bodyBytes (fun a => [a.position, a.classes]) b))
  | .readQueue p b => some (p, frameBytes 0x15#8 (bodyBytes (fun x => [x]) b))
  | .deviceReset | .cycleStart _ _ | .trailArrival _ _ | .receiveWindowClose _ | .leaseExpiry _ | .probeDue
  | .bringupSeek | .switchCycle | .batchFormation | .isolationRecovery _ | .breakDetected _ | .quietCountComplete _
  | .resyncEntry | .prepareTimeout _ | .settleEnd _ | .resetRelease => none

/-- The command a table word spells: no row of the table gives bits, so none. -/
def decodeTableWord (_nbits _w : Nat) : Option Instr := none

end Sys2Proof
end

