-- ==== Sys2Proof/Machine/State.lean ====
section
/-! DEFINITION. Everything the manual gives the head, as plain data, block by block (Table 0-3), and its value after
reset. INVENTORY.md lists each field with its rule and reset value. -/

namespace Sys2Proof.Machine

/-! ### The host ports (chapter 10) -/

/-- Port state (Table 10-1). -/
inductive PortState where
  | detached | attached
  deriving DecidableEq, Repr

/-- How the last session of a port ended (Table 10-1). -/
inductive EndReason where
  | none | detach | leaseExpired
  deriving DecidableEq, Repr

/-- The 19 response statuses, in the order of their codes (Table 10-5). -/
inductive Status where
  | ok | accepted | frameError | badRequest | badValue | notAttached | alreadyAttached | notOwner | notFound | notReady
  | noHandle | draftFull | draftBusy | duplicate | queueFull | writeProtected | targetUnreachable | inUse | switchBusy
  deriving DecidableEq, Repr

/-! ### Streams (chapter 1) -/

/-- Stream state (Table 1-1). -/
inductive StreamState where
  | free | staged | switchingIn | live | suspended | switchingOut
  deriving DecidableEq, Repr

/-- A forced close waiting for the next batch (Table 1-1). -/
inductive ReleaseMark where
  | none | released | replaced
  deriving DecidableEq, Repr

/-- Why a stream is or was closed (Tables 1-1 and 11-2). -/
inductive CloseCause where
  | owner | released | replaced | restart
  deriving DecidableEq, Repr

/-- The change a stream carries in the batch being switched (Table 1-1). -/
inductive PendingChange where
  | none
  | resize (n : Nat)
  | close (cause : CloseCause)
  deriving DecidableEq, Repr

/-- The suspension cause set (R15). -/
structure Causes where
  lost : Bool
  isolated : Bool
  resync : Bool
  deriving DecidableEq, Repr

/-- One of the 32 stream records (Table 1-1). The lane count of a placement is `lanes`. -/
structure Stream where
  state : StreamState
  owner : Option (Port × Nat)
  orphan : Bool
  label : BitVec 16
  source : Nat
  sinks : List Nat
  lanes : Nat
  down : Option Nat
  up : Option Nat
  change : PendingChange
  causes : Causes
  mark : ReleaseMark
  placedEpoch : Epoch
  deriving DecidableEq, Repr

/-! ### Drafts, commits, settings (chapter 3) -/

/-- The five settings in the order of their codes (Table 3-6). -/
inductive Setting where
  | switchLead | prepareTimeout | retryLimit | probeInterval | eventFetch
  deriving DecidableEq, Repr

/-- Values of the five settings (Table 3-6). -/
structure Settings where
  switchLead : Nat
  prepareTimeout : Nat
  retryLimit : Nat
  probeInterval : Nat
  eventFetch : Bool
  deriving DecidableEq, Repr

/-- The flags of a commit (R51). -/
inductive CommitFlags where
  | none | repack
  deriving DecidableEq, Repr

/-- Draft state (Table 3-2). -/
inductive DraftState where
  | empty | opened | queued | active
  deriving DecidableEq, Repr

/-- A draft entry (R43). -/
inductive DraftEntry where
  | opening (handle : Handle) (source : Nat) (sinks : List Nat) (lanes : Nat) (label : BitVec 16)
  | closing (handle : Handle)
  | resizing (handle : Handle) (lanes : Nat)
  | setting (setting : Setting) (value : Nat)
  deriving DecidableEq, Repr

/-- The draft of a port (Table 3-2). -/
structure Draft where
  state : DraftState
  entries : List DraftEntry
  session : Option Nat
  flags : Option CommitFlags
  ended : Bool
  deriving DecidableEq, Repr

/-- An entry of the commit queue (R53). -/
structure CommitEntry where
  port : Port
  session : Nat
  flags : CommitFlags
  deriving DecidableEq, Repr

/-! ### Plans (chapter 2) -/

/-- The two passes of a cycle. -/
inductive Pass where
  | down | up
  deriving DecidableEq, Repr

/-- The role of an endpoint in a map line (R37). -/
inductive Role where
  | source | sink
  deriving DecidableEq, Repr

/-- A stream of a plan with its placements (R21). -/
structure PlanEntry where
  handle : Handle
  owner : Option (Port × Nat)
  source : Nat
  sinks : List Nat
  lanes : Nat
  down : Option Nat
  up : Option Nat
  deriving DecidableEq, Repr

/-- A plan: its streams, ascending by handle. Lane occupancy, endpoint maps and gate are computed from it (R21, R24,
R37). -/
abbrev Plan := List PlanEntry

/-- A line of an endpoint's map (R37). -/
structure MapLine where
  handle : Handle
  pass : Pass
  first : Nat
  lanes : Nat
  role : Role
  deriving DecidableEq, Repr

/-- Sets of down-pass and up-pass lanes, each ascending: the media port gate (R98) and the mute set (R101). -/
structure LaneSets where
  down : List Nat
  up : List Nat
  deriving DecidableEq, Repr

/-! ### The Switch Engine (chapter 4) -/

/-- Phase of the Switch Engine (Table 4-1). -/
inductive Phase where
  | idle | prepare | countdown | settle
  deriving DecidableEq, Repr

/-- Status of a map transfer (Table 4-3). -/
inductive TransferStatus where
  | queued | sent | ready
  deriving DecidableEq, Repr

/-- A transfer record (Table 4-3). -/
structure Transfer where
  position : Nat
  map : List MapLine
  status : TransferStatus
  nextIndex : Nat
  resends : Nat
  missed : Bool
  settled : Bool
  deriving DecidableEq, Repr

/-- The batch in flight (Table 3-8). Next maps and the next gate are computed from `nextPlan`; `lead` is the countdown
length L kept at the hand-over (R67). -/
structure Batch where
  nextPlan : Plan
  nextSettings : Settings
  changed : List Setting
  affected : List Nat
  commits : List (Port × Nat)
  forced : List Handle
  stale : List Nat
  lead : Nat
  deriving DecidableEq, Repr

/-- The Switch Engine (Table 4-2). -/
structure SwitchEngine where
  phase : Phase
  epoch : Epoch
  token : Token
  plan : Plan
  settings : Settings
  batch : Option Batch
  transfers : List Transfer
  queue : List Nat
  progress : Nat
  countdown : Nat
  settle : Nat
  deriving DecidableEq, Repr

/-! ### The Chain Manager and the hops (chapters 6 and 7) -/

/-- State of a chain table entry (Table 6-1). -/
inductive EntryState where
  | absent | joining | ready | lost | resyncing
  deriving DecidableEq, Repr

/-- Grade of a hop (R124). -/
inductive HopState where
  | healthy | degraded | isolated
  deriving DecidableEq, Repr

/-- An identity record (Table 6-2). -/
structure Identity where
  kind : Byte
  revision : Byte
  serial : BitVec 32
  sourceLimit : Nat
  sinkLimit : Nat
  deriving DecidableEq, Repr

/-- A chain table entry with the hop fields of its hop (Table 6-2, R124). -/
structure ChainEntry where
  state : EntryState
  identity : Option Identity
  rejoined : Bool
  quiet : Nat
  stale : Bool
  outOfStep : Bool
  attempts : Nat
  reported : Option Epoch
  hopScore : Nat
  hopState : HopState
  cleanRun : Nat
  deriving DecidableEq, Repr

/-- Chain state (R104). -/
inductive ChainState where
  | off | bringUp | running
  deriving DecidableEq, Repr

/-- Step of the bring-up record (R104). -/
inductive BringUpStep where
  | wait | seek
  deriving DecidableEq, Repr

/-- The bring-up record (R104). `cycles` counts the cycle starts since the wait began; it is absent while the EXTEND
that begins the wait has not gone out yet (R105). -/
structure BringUp where
  position : Nat
  step : BringUpStep
  cycles : Option Nat
  tries : Nat
  deriving DecidableEq, Repr

/-- The resync transfer (R117). -/
structure ResyncTransfer where
  position : Nat
  nextIndex : Nat
  deriving DecidableEq, Repr

/-- The Chain Manager: chain table and the items of R104. -/
structure ChainManager where
  state : ChainState
  table : Tab ChainEntry 15
  bringUp : Option BringUp
  breakCount : Nat
  largestShort : Nat
  probeCount : Nat
  probePending : Bool
  extendPending : Option Nat
  resync : Option ResyncTransfer
  lastReach : Nat
  lastMissing : Bool
  deriving DecidableEq, Repr

/-! ### The Cycle Engine and the Control Slot Arbiter (chapters 5 and 8) -/

/-- Control kinds in the order of their codes (Table 5-2, Table 11-2). -/
inductive ControlKind where
  | none | extend | seek | mapLine | mapSeal | eventTake | remoteRead | remoteWrite | remoteWriteAll
  deriving DecidableEq, Repr

/-- The item a message of the chain client serves; its answer is taken under the rule of that item (R119). -/
inductive ChainItem where
  | bringUpExtend | bringUpSeek | extend | resyncLine | resyncSeal | probe
  deriving DecidableEq, Repr

/-- A client of the control slot (Table 8-1). -/
inductive Client where
  | switch
  | chain (item : ChainItem)
  | fetch
  | host (p : Port)
  deriving DecidableEq, Repr

/-- A control message: target, kind and 8-byte payload (R87, R88). -/
structure ControlMsg where
  target : Nat
  kind : ControlKind
  payload : List Byte
  deriving DecidableEq, Repr

/-- The Cycle Engine's record of the cycle's message (R88). -/
structure SlotRecord where
  client : Option Client
  target : Nat
  kind : ControlKind
  deriving DecidableEq, Repr

/-- A lead block without its check, which is computed (R87). -/
structure LeadBlock where
  cycle : BitVec 16
  epoch : Epoch
  countdown : Nat
  token : Token
  msg : ControlMsg
  deriving DecidableEq, Repr

/-- The Cycle Engine. `gate` and `mute` are those of the cycle in progress (R98, R101), `lead` and `downLanes` what the
chain port sent in it (R87, R91), `upLanes` the up lanes received in the last cycle (R95), `mediaOut` the frame on the
media port (R100), `window` whether the receive window is open (R95). `begun` is the model's own (assumption 22): it is
present while a cycle start is in progress of which rows of the command table have made acts ahead of CYCLE_START, and
holds those acts. -/
structure CycleEngine where
  counter : Stamp
  portEnabled : Bool
  msg : ControlMsg
  record : Option SlotRecord
  lead : Option LeadBlock
  window : Bool
  begun : Option (List CycleAct)
  gate : LaneSets
  mute : LaneSets
  downLanes : Tab Sample 64
  upLanes : Tab Sample 64
  mediaOut : Tab Sample 64
  deriving DecidableEq, Repr

/-- The Control Slot Arbiter (R135). -/
structure Arbiter where
  lastGranted : Port
  grant : Option Client
  deriving DecidableEq, Repr

/-! ### Remote access and event fetch (chapter 8) -/

/-- Kind of a remote request (Table 8-3). -/
inductive RemoteKind where
  | read | write | writeAll
  deriving DecidableEq, Repr

/-- A remote request record (Table 8-3). A WRITE_ALL has no target, a READ no data. -/
structure RemoteRequest where
  kind : RemoteKind
  target : Option Nat
  address : Nat
  length : Nat
  data : List Byte
  tag : Byte
  session : Nat
  retries : Nat
  deriving DecidableEq, Repr

/-- The outstanding record (Table 8-4); `discarded` is the mark of R147. -/
structure Outstanding where
  request : RemoteRequest
  port : Port
  cycle : Stamp
  expected : List Nat
  discarded : Bool
  deriving DecidableEq, Repr

/-- The Remote Access Unit (Table 8-4). -/
structure RemoteUnit where
  queues : Tab (List RemoteRequest) 4
  outstanding : Option Outstanding
  deriving DecidableEq, Repr

/-- The Event Fetch Unit (Table 8-5); `wanted` is ascending. -/
structure FetchUnit where
  wanted : List Nat
  lastFetched : Nat
  outstanding : Option Nat
  deriving DecidableEq, Repr

/-! ### Notices, events, port queues (chapter 9) -/

/-- Failure reasons of Lane Placement, in check order (Table 2-3). -/
inductive FailReason where
  | notReady | unreachable | noLanes | fragmented | sourceLimit | sinkLimit | mapFull | streamGone
  deriving DecidableEq, Repr

/-- Reasons of an abandonment (section 4.6). -/
inductive AbandonReason where
  | mapTransfer | timeout | endpointLost
  deriving DecidableEq, Repr

/-- Reasons of REMOTE_FAILED (Table 9-3). -/
inductive RemoteReason where
  | targetUnreachable | noAnswer
  deriving DecidableEq, Repr

/-- Notices in the order of their codes (Table 9-3). -/
inductive Notice where
  | commitDone (epoch : Epoch) (moved : Nat)
  | commitRejected (index : Nat) (reason : FailReason)
  | commitAbandoned (reason : AbandonReason)
  | streamSuspended (handle : Handle) (causes : Causes)
  | streamResumed (handle : Handle)
  | streamMoved (handle : Handle) (down up : Option Nat)
  | streamClosed (handle : Handle) (cause : CloseCause)
  | remoteDone (tag : Byte) (data : Option (List Byte))
  | remoteFailed (tag : Byte) (reason : RemoteReason)
  | remotePartial (tag : Byte) (count : Nat)
  | settingsChanged (setting : Setting) (value : Nat)
  deriving DecidableEq, Repr

/-- Events: the head events in the order of their codes (Table 9-4), and the event of an endpoint (R158). -/
inductive Event where
  | endpointJoined (position : Nat)
  | endpointReady (position : Nat)
  | endpointLost (position : Nat)
  | endpointReplaced (position : Nat)
  | chainRestarted (epoch : Epoch)
  | hopDegraded (hop : Nat)
  | hopIsolated (hop : Nat)
  | hopRecovered (hop : Nat)
  | epochChanged (epoch : Epoch)
  | endpoint (position : Nat) (code : Nat) (detail : BitVec 16)
  deriving DecidableEq, Repr

/-- What an entry of a port queue holds besides its stamp (Table 9-2). -/
inductive Item where
  | notice (n : Notice)
  | event (e : Event)
  deriving DecidableEq, Repr

/-- A queue entry (Table 9-2): position, class, code and arguments follow from the item. -/
structure QueueEntry where
  item : Item
  stamp : Stamp
  deriving DecidableEq, Repr

/-- The Router's items of one port (Table 9-1). A class set has bit k for class k. -/
structure RouterPort where
  queue : List QueueEntry
  subscriptions : Tab Byte 16
  lost : Nat
  noticeLoss : Bool
  attention : Bool
  deriving DecidableEq, Repr

/-! ### Responses -/

/-- An item of LIST_STREAMS (R20). -/
structure ListItem where
  handle : Handle
  state : StreamState
  ownerPort : Option Port
  orphan : Bool
  deriving DecidableEq, Repr

/-- The body of PORT_STATUS (R178). -/
structure PortStatusBody where
  state : PortState
  session : Nat
  lease : Nat
  leaseRemaining : Option Nat
  endReason : EndReason
  queueLength : Nat
  eventCount : Nat
  lost : Nat
  noticeLoss : Bool
  remoteHeld : Nat
  draft : DraftState
  deriving DecidableEq, Repr

/-- The body of DRAFT_VIEW (R50). -/
structure DraftViewBody where
  state : DraftState
  count : Nat
  flags : Option CommitFlags
  place : Option Nat
  entries : List (Nat × DraftEntry)
  next : Option Nat
  deriving DecidableEq, Repr

/-- The body of PLAN_INFO (R85). -/
structure PlanInfoBody where
  epoch : Epoch
  phase : Phase
  token : Token
  countdown : Nat
  downFree : Nat
  upFree : Nat
  queueLength : Nat
  affected : Option Nat
  ready : Option Nat
  deriving DecidableEq, Repr

/-- The chain summary of CHAIN_INFO for position 0 (R120). -/
structure ChainSummary where
  state : ChainState
  endM : Nat
  bringUp : Option Nat
  lastReach : Nat
  lastMissing : Bool
  breakCount : Nat
  resync : Option Nat
  deriving DecidableEq, Repr

/-- The body of a response, by request (Table 11-5). -/
inductive Body where
  | empty
  | attach (session lease : Nat)
  | portStatus (b : PortStatusBody)
  | opened (index : Nat) (handle : Handle)
  | index (i : Nat)
  | draftView (b : DraftViewBody)
  | stream (handle : Handle) (r : Stream)
  | streams (items : List ListItem) (next : Option Handle)
  | plan (b : PlanInfoBody)
  | summary (b : ChainSummary)
  | entry (position : Nat) (e : ChainEntry)
  | queue (entries : List QueueEntry) (remaining lost : Nat) (noticeLoss : Bool)
  deriving DecidableEq, Repr

/-- A response frame without its overrun field, which is read from the flag (R174), and its CRC-8, which is computed. -/
structure Response where
  status : Status
  body : Body
  deriving DecidableEq, Repr

/-- The context of a port (Table 10-1), and the bytes its data-out line last gave the host (Table 0-6). -/
structure PortContext where
  state : PortState
  session : Nat
  lease : Nat
  leaseCount : Option Nat
  endReason : EndReason
  slot : Option Response
  overrun : Bool
  dataOut : List Byte
  deriving DecidableEq, Repr

/-! ### The machine -/

/-- The state of the head: the reset line, the blocks of Table 0-3, and the queue of commands that wait, first in,
first out. -/
structure State where
  resetHigh : Bool
  ports : Tab PortContext 4
  streams : Tab Stream 32
  drafts : Tab Draft 4
  commits : List CommitEntry
  switch : SwitchEngine
  chain : ChainManager
  cycle : CycleEngine
  arbiter : Arbiter
  remote : RemoteUnit
  fetch : FetchUnit
  router : Tab RouterPort 4
  pending : List Instr
  deriving DecidableEq, Repr

/-- Reasons a command could stop the head. There is none: the manual gives every command an effect in every state, a
refused request being a response. -/
inductive Fault where
  deriving DecidableEq, Repr

/-- Reasons the model could decline a command. -/
inductive Refusal where
  /-- Raised by an arm of `exec` that has no meaning yet; no arm of this model raises it. Safe: the model stops where
  the head goes on. -/
  | notModelled (mnemonic : String)
  deriving DecidableEq, Repr

/-! ### Reset values -/

/-- No suspension cause. -/
def Causes.none : Causes := { lost := false, isolated := false, resync := false }

/-- A FREE record (R1). -/
def Stream.free : Stream :=
  { state := .free, owner := none, orphan := false, label := 0#16, source := 0, sinks := [], lanes := 0, down := none,
    up := none, change := .none, causes := Causes.none, mark := .none, placedEpoch := 0#16 }

/-- An EMPTY draft (R42). -/
def Draft.empty : Draft := { state := .empty, entries := [], session := none, flags := none, ended := false }

/-- The default settings (Table 3-6, R59). -/
def Settings.default : Settings :=
  { switchLead := 4, prepareTimeout := 96, retryLimit := 2, probeInterval := 64, eventFetch := true }

/-- The empty gate and the empty mute set (R98, R101). -/
def LaneSets.none : LaneSets := { down := [], up := [] }

/-- The Switch Engine after device reset (R64). -/
def SwitchEngine.reset : SwitchEngine :=
  { phase := .idle, epoch := 0#16, token := 0#8, plan := [], settings := Settings.default, batch := none,
    transfers := [], queue := [], progress := 0, countdown := 0, settle := 0 }

/-- A chain table entry after device reset and restart (R103, R124). -/
def ChainEntry.reset : ChainEntry :=
  { state := .absent, identity := none, rejoined := false, quiet := 0, stale := false, outOfStep := false, attempts := 0,
    reported := none, hopScore := 0, hopState := .healthy, cleanRun := 0 }

/-- The bring-up record at the entry into BRINGUP: position 1, step WAIT, the wait just begun (R104, R105). -/
def BringUp.first : BringUp := { position := 1, step := .wait, cycles := some 0, tries := 0 }

/-- The Chain Manager after device reset (R103, R104): the bring-up record as the table of R104 gives it, although the
chain is still OFF (assumption 6). -/
def ChainManager.reset : ChainManager :=
  { state := .off, table := Tab.fill 15 ChainEntry.reset, bringUp := some BringUp.first, breakCount := 0, largestShort := 0,
    probeCount := 0, probePending := false, extendPending := none, resync := none, lastReach := 0, lastMissing := false }

/-- A frame or pass of 64 zero samples. -/
def silence : Tab Sample 64 := Tab.fill 64 0#16

/-- The message of a cycle in which no client is granted: target 0, kind NONE, payload all zero (R88). -/
def ControlMsg.idle : ControlMsg := { target := 0, kind := .none, payload := List.replicate 8 0#8 }

/-- The Cycle Engine after device reset: counter 0, nothing sent, the gate closed (R86, R98, R101). -/
def CycleEngine.reset : CycleEngine :=
  { counter := 0#32, portEnabled := false, msg := ControlMsg.idle, record := none, lead := none, window := false,
    begun := none, gate := LaneSets.none, mute := LaneSets.none, downLanes := silence, upLanes := silence, mediaOut := silence }

/-- The Router's items of a port after device reset and at a session end (R153, R166). -/
def RouterPort.reset : RouterPort :=
  { queue := [], subscriptions := Tab.fill 16 0#8, lost := 0, noticeLoss := false, attention := false }

/-- The context of a port after device reset (Table 10-1, R168). -/
def PortContext.reset : PortContext :=
  { state := .detached, session := 0, lease := 0, leaseCount := none, endReason := .none, slot := none,
    overrun := false, dataOut := [] }

/-- The head right after device reset, the reset line released (R1, R42, R53, R59, R64, R86, R103, R124, R135, R153,
R168; Tables 8-4 and 8-5). The manual gives the Arbiter's last-granted port only; that no grant stands is the model's choice
(assumption 21). -/
def State.reset : State :=
  { resetHigh := true
    ports := Tab.fill 4 PortContext.reset
    streams := Tab.fill 32 Stream.free
    drafts := Tab.fill 4 Draft.empty
    commits := []
    switch := SwitchEngine.reset
    chain := ChainManager.reset
    cycle := CycleEngine.reset
    arbiter := { lastGranted := 3, grant := none }
    remote := { queues := Tab.fill 4 [], outstanding := none }
    fetch := { wanted := [], lastFetched := 0, outstanding := none }
    router := Tab.fill 4 RouterPort.reset
    pending := [] }

end Sys2Proof.Machine
end

