-- ==== Sys2Proof/Machine/Flags.lean ====
section
/-! DEFINITION. The flags the head raises toward a host: the attention line, the lost-event counter and the notice-loss
flag of a port queue (R159 to R161, R165), and the overrun flag of a response slot (R174). -/

namespace Sys2Proof.Machine

/-- Whether an entry is of type EVENT (Table 9-2). -/
def QueueEntry.isEvent (e : QueueEntry) : Bool :=
  match e.item with
  | .event _ => true
  | .notice _ => false

/-- The event count of a queue (Table 9-1, note 2). -/
def eventCount (q : List QueueEntry) : Nat := q.countP QueueEntry.isEvent

/-- The lost-event counter after one more loss: it stops at 255 (R161). -/
def lostUp (n : Nat) : Nat := min Config.lostMax (n + 1)

/-- The queue without its newest event, the others in order (R160). -/
def dropNewestEvent (q : List QueueEntry) : List QueueEntry := (q.reverse.eraseP QueueEntry.isEvent).reverse

/-- R159: an event copy arriving at a port's queue. An entry appended asserts the attention line (R165). -/
def RouterPort.putEvent (e : QueueEntry) (r : RouterPort) : RouterPort :=
  if Config.eventCap ≤ eventCount r.queue ∨ Config.queueSize ≤ r.queue.length then { r with lost := lostUp r.lost }
  else { r with queue := r.queue ++ [e], attention := true }

/-- R160: a notice arriving at a port's queue. -/
def RouterPort.putNotice (e : QueueEntry) (r : RouterPort) : RouterPort :=
  if r.queue.length < Config.queueSize then { r with queue := r.queue ++ [e], attention := true }
  else if eventCount r.queue = 0 then { r with noticeLoss := true }
  else { r with queue := dropNewestEvent r.queue ++ [e], lost := lostUp r.lost }

/-- R162: the queue after a read of `n` entries; the counter and the flag are cleared, and the attention line follows
the queue (R165). -/
def RouterPort.read (n : Nat) (r : RouterPort) : RouterPort :=
  { r with queue := r.queue.drop n, lost := 0, noticeLoss := false, attention := r.attention && !(r.queue.drop n).isEmpty }

/-- R173 step 1, R174: a request frame finds the slot full. -/
def PortContext.overran (c : PortContext) : PortContext := { c with overrun := true }

/-- R174: a completed read empties the slot and clears the overrun flag. -/
def PortContext.taken (c : PortContext) : PortContext := { c with slot := none, overrun := false }

end Sys2Proof.Machine
end

