-- ==== Sys2Proof/Machine/Ops.lean ====
section
/-! DEFINITION. The named operations over the registers of the head: access to the register groups, the Router's
hand-over of notices and events (R155 to R157), and the recomputation of cause sets (R15, R16). -/

namespace Sys2Proof.Machine

/-! ### Register groups -/

/-- The context of a port. -/
def State.port (s : State) (p : Port) : PortContext := s.ports.get p

/-- Replace the context of a port. -/
def State.setPort (s : State) (p : Port) (c : PortContext) : State := { s with ports := s.ports.set p c }

/-- The record of a handle. -/
def State.stream (s : State) (h : Handle) : Stream := s.streams.get h

/-- Replace a stream record. -/
def State.setStream (s : State) (h : Handle) (r : Stream) : State := { s with streams := s.streams.set h r }

/-- The draft of a port. -/
def State.draft (s : State) (p : Port) : Draft := s.drafts.get p

/-- Replace a draft. -/
def State.setDraft (s : State) (p : Port) (d : Draft) : State := { s with drafts := s.drafts.set p d }

/-- Replace the commit queue. -/
def State.setCommits (s : State) (l : List CommitEntry) : State := { s with commits := l }

/-- Replace the Switch Engine. -/
def State.setSwitch (s : State) (x : SwitchEngine) : State := { s with switch := x }

/-- Replace the Chain Manager. -/
def State.setChain (s : State) (x : ChainManager) : State := { s with chain := x }

/-- Replace the Cycle Engine. -/
def State.setCycle (s : State) (x : CycleEngine) : State := { s with cycle := x }

/-- Replace the Arbiter. -/
def State.setArbiter (s : State) (x : Arbiter) : State := { s with arbiter := x }

/-- Replace the Remote Access Unit. -/
def State.setRemote (s : State) (x : RemoteUnit) : State := { s with remote := x }

/-- Replace the Event Fetch Unit. -/
def State.setFetch (s : State) (x : FetchUnit) : State := { s with fetch := x }

/-- The Router's items of a port. -/
def State.routerPort (s : State) (p : Port) : RouterPort := s.router.get p

/-- Replace the Router's items of a port. -/
def State.setRouter (s : State) (p : Port) (r : RouterPort) : State := { s with router := s.router.set p r }

/-- The remote queue of a port. -/
def State.remoteQueue (s : State) (p : Port) : List RemoteRequest := s.remote.queues.get p

/-- Replace the remote queue of a port. -/
def State.setRemoteQueue (s : State) (p : Port) (l : List RemoteRequest) : State :=
  s.setRemote { s.remote with queues := s.remote.queues.set p l }

/-- Replace the outstanding record (R139). -/
def State.setOutstanding (s : State) (o : Option Outstanding) : State :=
  s.setRemote { s.remote with outstanding := o }

/-- The ports H0 to H3 in order. -/
def allPorts : List Port := Tab.indices 4

/-- The handles 0 to 31 in order. -/
def allHandles : List Handle := Tab.indices 32

/-- The positions 1 to 15 in order. -/
def positions : List Nat := List.range' 1 15

/-! ### The chain table -/

/-- The chain table entry of a position; a position that is no endpoint's reads as ABSENT. -/
def ChainManager.entry (c : ChainManager) (p : Nat) : ChainEntry :=
  if h : 1 ≤ p ∧ p ≤ 15 then c.table.get ⟨p - 1, by omega⟩ else ChainEntry.reset

/-- Replace the entry of a position 1–15. -/
def ChainManager.setEntry (c : ChainManager) (p : Nat) (e : ChainEntry) : ChainManager :=
  if h : 1 ≤ p ∧ p ≤ 15 then { c with table := c.table.set ⟨p - 1, by omega⟩ e } else c

/-- The chain table entry of a position. -/
def State.entry (s : State) (p : Nat) : ChainEntry := s.chain.entry p

/-- Replace the entry of a position 1–15. -/
def State.setEntry (s : State) (p : Nat) (e : ChainEntry) : State := s.setChain (s.chain.setEntry p e)

/-- Whether an entry counts toward the end of the chain: JOINING, RESYNCING or READY (R104). -/
def ChainEntry.enrolled (e : ChainEntry) : Bool :=
  e.state == .joining || e.state == .ready || e.state == .resyncing

/-- The highest enrolled position at or below `n`, or 0. -/
def ChainManager.endBelow (c : ChainManager) : Nat → Nat
  | 0 => 0
  | n + 1 => if (c.entry (n + 1)).enrolled then n + 1 else c.endBelow n

/-- The end of the chain, m (R104). -/
def ChainManager.endM (c : ChainManager) : Nat := c.endBelow Config.maxPosition

/-- Whether a position lies beyond an ISOLATED hop: some ISOLATED hop h with h at most q (R133). -/
def ChainManager.beyondIsolated (c : ChainManager) (q : Nat) : Bool :=
  positions.any fun h => decide (h ≤ q) && (c.entry h).hopState == .isolated

/-- Whether an endpoint is READY. -/
def ChainManager.isReady (c : ChainManager) (q : Nat) : Bool := (c.entry q).state == .ready

/-- Whether an endpoint is reachable: READY and beyond no ISOLATED hop (R133). -/
def ChainManager.reachable (c : ChainManager) (q : Nat) : Bool := c.isReady q && !c.beyondIsolated q

/-- The READY positions, ascending. -/
def ChainManager.readyPositions (c : ChainManager) : List Nat := positions.filter c.isReady

/-- Whether some endpoint is RESYNCING. -/
def ChainManager.resyncing (c : ChainManager) : Bool := positions.any fun p => (c.entry p).state == .resyncing

/-! ### Notices and events -/

/-- The number of the cycle in progress, the stamp of what is raised in it (R86, R155). -/
def State.stamp (s : State) : Stamp := s.cycle.counter

/-- Whether a port is ATTACHED. -/
def State.attached (s : State) (p : Port) : Bool := (s.port p).state == .attached

/-- R156: a notice handed to the Router for one port. -/
def State.notify (p : Port) (n : Notice) (s : State) : State :=
  if s.attached p then s.setRouter p ((s.routerPort p).putNotice { item := .notice n, stamp := s.stamp }) else s

/-- A notice addressed to a session of a port: dropped, uncounted, when the port is not ATTACHED or holds another
session (R58, R146). -/
def State.notifySession (p : Port) (session : Nat) (n : Notice) (s : State) : State :=
  if (s.port p).session = session then s.notify p n else s

/-- R58, R170, R177: a commit notice of a batch in flight. `d` is the draft of the commit when its batch ends: ended yes
says that the session that committed has ended, and no later session gets the notice, were it to carry the same number. -/
def State.notifyCommit (d : Draft) (c : Port × Nat) (n : Notice) (s : State) : State :=
  if d.ended then s else s.notifySession c.1 c.2 n

/-- Whether a stream belongs to a session (R12): same port, same session, orphan no. -/
def Stream.belongsTo (r : Stream) (p : Port) (session : Nat) : Bool := decide (r.owner = some (p, session)) && !r.orphan

/-- Whether a stream belongs to the current session of a port (R12). -/
def State.owns (s : State) (p : Port) (r : Stream) : Bool := r.belongsTo p (s.port p).session

/-- A stream notice, handed over under the addressing rule R12 for the stream's owner. -/
def State.notifyOwner (r : Stream) (n : Notice) (s : State) : State :=
  match r.owner with
  | some (p, _) => if s.owns p r then s.notify p n else s
  | none => s

/-- The position an event is raised at: 0 for a head event (Table 9-2). -/
def Event.position : Event → Nat
  | .endpoint p _ _ => p
  | _ => 0

/-- The class of an event (Table 9-4, R158). -/
def Event.class : Event → Nat
  | .endpointJoined _ | .endpointReady _ | .endpointLost _ | .endpointReplaced _ | .chainRestarted _ => 0
  | .hopDegraded _ | .hopIsolated _ | .hopRecovered _ => 1
  | .epochChanged _ => 2
  | .endpoint _ code _ => code / 8

/-- Whether a port is subscribed to a position and class (R157, R164). -/
def RouterPort.subscribed (r : RouterPort) (position cls : Nat) : Bool :=
  if h : position < 16 then (r.subscriptions.get ⟨position, h⟩).getLsbD cls else false

/-- R157: one port is offered an event. -/
def State.offer (e : Event) (s : State) (p : Port) : State :=
  if s.attached p && (s.routerPort p).subscribed e.position e.class then
    s.setRouter p ((s.routerPort p).putEvent { item := .event e, stamp := s.stamp })
  else s

/-- R157: an event handed to the Router is offered to H0, H1, H2, H3. -/
def State.raise (e : Event) (s : State) : State := allPorts.foldl (State.offer e) s

/-- R156: SETTINGS_CHANGED goes to every ATTACHED port. -/
def State.notifyAll (n : Notice) (s : State) : State := allPorts.foldl (fun s p => s.notify p n) s

/-! ### Suspension causes -/

/-- Whether the cause set is empty. -/
def Causes.isEmpty (c : Causes) : Bool := !c.lost && !c.isolated && !c.resync

/-- The endpoints of a stream: source and sinks without position 0 (Table 1-1, note 2). -/
def endpointsOf (source : Nat) (sinks : List Nat) : List Nat := (source :: sinks).filter (· != 0)

/-- The farthest endpoint position (Table 1-1, note 2). -/
def farthestOf (source : Nat) (sinks : List Nat) : Nat := (source :: sinks).foldl max 0

/-- R15: the cause set of a stream on the chain table and hop states as they stand. -/
def ChainManager.causes (c : ChainManager) (source : Nat) (sinks : List Nat) : Causes :=
  let es := endpointsOf source sinks
  { lost := es.any fun p => (c.entry p).state == .lost || (c.entry p).state == .joining
    isolated := c.beyondIsolated (farthestOf source sinks)
    resync := es.any fun p => (c.entry p).state == .resyncing || (c.entry p).outOfStep || (c.entry p).stale }

/-- R13: an orphan that is LIVE or SUSPENDED without a release mark takes RELEASED. -/
def Stream.orphanMarked (r : Stream) : Stream :=
  if r.orphan ∧ (r.state = .live ∨ r.state = .suspended) ∧ r.mark = .none then { r with mark := .released } else r

/-- R16: the record with a new cause set. -/
def Stream.withCauses (new : Causes) (r : Stream) : Stream :=
  if r.state = .live ∧ new.isEmpty = false then { r with causes := new, state := .suspended }.orphanMarked
  else if r.state = .suspended ∧ new.isEmpty = true then { r with causes := new, state := .live }.orphanMarked
  else { r with causes := new }

/-- R16: the notice a change of the cause set gives the owner. -/
def Stream.causeNotice (h : Handle) (new : Causes) (r : Stream) : Option Notice :=
  if r.state = .live ∨ r.state = .suspended ∨ r.state = .switchingOut then
    if r.causes.isEmpty = true ∧ new.isEmpty = false then some (.streamSuspended h new)
    else if r.causes.isEmpty = false ∧ new.isEmpty = true then some (.streamResumed h)
    else none
  else none

/-- A notice, if there is one, to the owner of a stream. -/
def State.notifyOwner? (r : Stream) (n : Option Notice) (s : State) : State :=
  match n with
  | some n => s.notifyOwner r n
  | none => s

/-- R15, R16: recompute one stream's cause set. -/
def State.recomputeStream (s : State) (h : Handle) : State :=
  let r := s.stream h
  let new := s.chain.causes r.source r.sinks
  if r.state = .free ∨ new = r.causes then s
  else (s.setStream h (r.withCauses new)).notifyOwner? r (r.causeNotice h new)

/-- R15, R16: the Stream Table recomputes every non-FREE stream on a report, in ascending handle order. -/
def State.recompute (s : State) : State := allHandles.foldl State.recomputeStream s

/-! ### Marks (R115) -/

/-- R115: a stale mark set or removed, and its report, at which the Stream Table recomputes (R15). A mark that stands as
it should is no change and not reported. -/
def State.setStale (b : Bool) (s : State) (p : Nat) : State :=
  if (s.entry p).stale = b then s else (s.setEntry p { s.entry p with stale := b }).recompute

/-- R115: an out-of-step mark set, and its report. -/
def State.setOutOfStep (s : State) (p : Nat) : State :=
  if (s.entry p).outOfStep = true then s else (s.setEntry p { s.entry p with outOfStep := true }).recompute

/-! ### Records -/

/-- R1: a record becomes FREE. -/
def State.freeStream (s : State) (h : Handle) : State := s.setStream h Stream.free

/-- R14: the stronger of two marks, REPLACED above RELEASED. -/
def ReleaseMark.max : ReleaseMark → ReleaseMark → ReleaseMark
  | .replaced, _ => .replaced
  | .released, .replaced => .replaced
  | .released, _ => .released
  | .none, m => m

/-- The handles an OPEN entry of a draft names. -/
def DraftEntry.opens? : DraftEntry → Option Handle
  | .opening h _ _ _ _ => some h
  | _ => none

/-- The handle a draft entry names (R43). -/
def DraftEntry.handle? : DraftEntry → Option Handle
  | .opening h _ _ _ _ => some h
  | .closing h => some h
  | .resizing h _ => some h
  | .setting _ _ => none

/-- R4: the streams of the OPEN entries of a list become FREE, without a notice. -/
def State.freeOpened (s : State) (es : List DraftEntry) : State := (es.filterMap DraftEntry.opens?).foldl State.freeStream s

/-- A draft is discarded: the streams of its OPEN entries become FREE and the draft EMPTY (R49, R54, R63). -/
def State.discardDraft (s : State) (p : Port) : State := (s.freeOpened (s.draft p).entries).setDraft p Draft.empty

/-- R59: the value of a setting. -/
def Settings.get (x : Settings) : Setting → Nat
  | .switchLead => x.switchLead
  | .prepareTimeout => x.prepareTimeout
  | .retryLimit => x.retryLimit
  | .probeInterval => x.probeInterval
  | .eventFetch => if x.eventFetch then 1 else 0

/-- R57: one setting given a value. -/
def Settings.set (x : Settings) (k : Setting) (v : Nat) : Settings :=
  match k with
  | .switchLead => { x with switchLead := v }
  | .prepareTimeout => { x with prepareTimeout := v }
  | .retryLimit => { x with retryLimit := v }
  | .probeInterval => { x with probeInterval := v }
  | .eventFetch => { x with eventFetch := v != 0 }

/-- The settings in the order of Table 3-6. -/
def allSettings : List Setting := [.switchLead, .prepareTimeout, .retryLimit, .probeInterval, .eventFetch]

end Sys2Proof.Machine
end

