-- ==== Sys2Proof/Machine/Trail.lean ====
section
/-! DEFINITION. Trail arrival: the sorted trail (R96) and the answer of the cycle (R97, R181). -/

namespace Sys2Proof.Machine

/-- The fields of a valid trail entry (Table 5-3). -/
structure TrailFields where
  leadOk : Bool
  controlSeen : Bool
  eventPending : Bool
  readyValid : Bool
  token : Token
  epoch : Epoch
  deriving DecidableEq, Repr

/-- The sorted trail handed to every reader: the entries nearest first, none for an invalid one, and the missing mark. -/
structure Trail where
  entries : List (Option TrailFields)
  missing : Bool
  deriving DecidableEq, Repr

/-- Reach: the number of entries received, 0–15 (R96). -/
def Trail.reach (t : Trail) : Nat := t.entries.length

/-- The fields of the entry of a position when the trail holds a valid one (R96). -/
def Trail.valid (t : Trail) (p : Nat) : Option TrailFields :=
  match p with
  | 0 => none
  | k + 1 => (t.entries[k]?).join

/-- Whether the trail holds an entry at the place of a position and it is invalid (R96). -/
def Trail.invalid (t : Trail) (p : Nat) : Bool :=
  match p with
  | 0 => false
  | k + 1 => t.entries[k]? == some none

/-- The trail of a cycle whose window closed without a complete up pass (R95). -/
def Trail.none : Trail := { entries := [], missing := true }

/-- R94, Table 11-9: the entry counted `place`-th from the near end, none when its check is bad or its position field
is not its place (R96). -/
def readEntry (place : Nat) (b : Tab Byte 6) : Option TrailFields :=
  match b.toList with
  | [pos, flags, token, e1, e0, check] =>
    if check = trailCheck [pos, flags, token, e1, e0] ∧ pos.toNat = place then
      some { leadOk := flags.getLsbD 0, controlSeen := flags.getLsbD 1, eventPending := flags.getLsbD 2,
             readyValid := flags.getLsbD 3, token := token, epoch := word16 e1 e0 }
    else .none
  | _ => .none

/-- The entries from a place on. -/
def readEntries : Nat → List (Tab Byte 6) → List (Option TrailFields)
  | _, [] => []
  | place, b :: l => readEntry place b :: readEntries (place + 1) l

/-- R96: the trail sorted from the near end, cut to the 15 nearest entries. -/
def sortTrail (up : UpPass) : Trail :=
  { entries := readEntries 1 (up.trail.reverse.take Config.maxPosition), missing := false }

/-- Answer results (Table 5-2, Table 11-2). -/
inductive AnswerResult where
  | ok | countMismatch | noEvent
  deriving DecidableEq, Repr

/-- A valid answer as the granted client gets it: result and payload (R97). -/
structure Answer where
  result : AnswerResult
  payload : List Byte
  deriving DecidableEq, Repr

/-- Codes of the control kinds (Table 11-2). -/
def ControlKind.code : ControlKind → Byte
  | .none => 0x00#8
  | .extend => 0x01#8
  | .seek => 0x02#8
  | .mapLine => 0x03#8
  | .mapSeal => 0x04#8
  | .eventTake => 0x05#8
  | .remoteRead => 0x06#8
  | .remoteWrite => 0x07#8
  | .remoteWriteAll => 0x08#8

/-- The result a result byte stands for (Table 11-2). -/
def resultOf (b : Byte) : Option AnswerResult :=
  match b.toNat with
  | 1 => some .ok
  | 2 => some .countMismatch
  | 3 => some .noEvent
  | _ => none

/-- Whether Table 5-2 allows a result for a kind (R97). -/
def ControlKind.allows (k : ControlKind) (r : AnswerResult) : Bool :=
  match k, r with
  | .none, _ => false
  | .remoteWriteAll, _ => false
  | _, .ok => true
  | .mapSeal, .countMismatch => true
  | .eventTake, .noEvent => true
  | _, _ => false

/-- The classes of the answer block field (R97). -/
inductive AnswerClass where
  | absent
  | bad
  | good (source kind result : Byte) (payload : List Byte)
  deriving DecidableEq, Repr

/-- R97 and Table 11-9, note 1: the class of an answer block field. An empty field has kind echo 00h. -/
def classifyAnswer (b : Tab Byte 13) : AnswerClass :=
  match b.toList with
  | src :: kind :: res :: rest =>
    if kind = 0#8 then .absent
    else if rest.drop 8 = bytes16 (blockCheck (src :: kind :: res :: rest.take 8)) then .good src kind res (rest.take 8)
    else .bad
  | _ => .absent

/-- R181: an EVENT_TAKE answer with result OK whose code byte exceeds 3Fh is no valid answer. -/
def payloadAllowed (k : ControlKind) (r : AnswerResult) (payload : List Byte) : Bool :=
  match k, r, payload with
  | .eventTake, .ok, code :: _ => decide (code.toNat ≤ 0x3F)
  | _, _, _ => true

/-- R97: the valid answer for the client granted in the cycle, if the field holds one. -/
def validAnswer (rec : SlotRecord) (b : Tab Byte 13) : Option Answer :=
  match classifyAnswer b with
  | .good src kind res payload =>
    match resultOf res with
    | some r =>
      if src.toNat = rec.target ∧ kind = rec.kind.code ∧ rec.kind.allows r = true ∧ payloadAllowed rec.kind r payload = true then
        some { result := r, payload := payload }
      else none
    | none => none
  | _ => none

/-- R106, R114: the identity record of a SEEK answer, its limits above 32 stored as 32 (Table 11-10). -/
def identityOf (payload : List Byte) : Option Identity :=
  match payload with
  | [kind, rev, s3, s2, s1, s0, src, snk] =>
    some { kind := kind, revision := rev, serial := word32 s3 s2 s1 s0, sourceLimit := min Config.limitMax src.toNat,
           sinkLimit := min Config.limitMax snk.toNat }
  | _ => none

/-- What one trail arrival brings every reader: the sorted trail, the record of the cycle's message (R88), the valid
answer to it, the switch token when the trail arrived, and the positions the break rule makes LOST at it (R110). -/
structure Arrival where
  trail : Trail
  record : SlotRecord
  answer : Option Answer
  token : Token
  losses : List Nat
  deriving DecidableEq, Repr

/-- The answer of the cycle when a client was granted it and it is a valid OK. -/
def Arrival.okPayload (a : Arrival) : Option (List Byte) :=
  match a.answer with
  | some ans => if ans.result = .ok then some ans.payload else none
  | none => none

end Sys2Proof.Machine
end

