-- ==== Sys2Proof/Machine/Hop.lean ====
section
/-! DEFINITION. The Hop Health Monitor (chapter 7): charges, clean cycles, grades, recovery from isolation. -/

namespace Sys2Proof.Machine

/-! ### Charges (R126, R127) -/

/-- R126: the hop of the nearest valid entry at or below `m` whose lead-ok is clear. -/
def downCharge (t : Trail) (m : Nat) : Option Nat :=
  (positions.filter fun p => decide (p ≤ m)).find? fun p =>
    match t.valid p with
    | some f => !f.leadOk
    | none => false

/-- R127: the hop of the nearest invalid entry at or below `m`, else the hop just beyond a short trail. -/
def upCharge (t : Trail) (m : Nat) : Option Nat :=
  match (positions.filter fun p => decide (p ≤ m)).find? t.invalid with
  | some p => some p
  | none => if t.reach < m then some (t.reach + 1) else none

/-- Whether a trail charges a hop (R126, R127). -/
def charged (t : Trail) (m p : Nat) : Bool := downCharge t m == some p || upCharge t m == some p

/-- R128: whether a hop has a clean cycle at a trail. -/
def cleanCycle (t : Trail) (m p : Nat) : Bool := (t.valid p).isSome && !charged t m p

/-! ### One hop at one trail (R128 to R131) -/

/-- R128: a charge. -/
def ChainEntry.charge (e : ChainEntry) : ChainEntry :=
  if e.hopState = .isolated then { e with cleanRun := 0 }
  else { e with hopScore := min Config.hopCeiling (e.hopScore + Config.hopCharge) }

/-- R128: a clean cycle. -/
def ChainEntry.clean (e : ChainEntry) : ChainEntry :=
  if e.hopState = .isolated then { e with cleanRun := e.cleanRun + 1 } else { e with hopScore := e.hopScore - 1 }

/-- R131: the hop of an entry leaves ISOLATED. -/
def ChainEntry.recovered (e : ChainEntry) : ChainEntry := { e with hopState := .healthy, hopScore := 0, cleanRun := 0 }

/-- Table 7-2 and R131: the grade of a hop after the charges and clean cycles of a trail. -/
def ChainEntry.graded (e : ChainEntry) : ChainEntry :=
  match e.hopState with
  | .healthy => if Config.degradeAt ≤ e.hopScore then { e with hopState := .degraded } else e
  | .degraded =>
    if Config.isolateAt ≤ e.hopScore then { e with hopState := .isolated, cleanRun := 0 }
    else if e.hopScore ≤ Config.healAt then { e with hopState := .healthy }
    else e
  | .isolated => if Config.recoverRun ≤ e.cleanRun then e.recovered else e

/-- The charge or clean cycle of a hop at a trail (R128). -/
def ChainEntry.scored (t : Trail) (m p : Nat) (e : ChainEntry) : ChainEntry :=
  if charged t m p then e.charge else if cleanCycle t m p then e.clean else e

/-- R128 to R131: a hop after a trail. Only a hop whose score or clean run changed is graded. -/
def ChainEntry.afterTrail (t : Trail) (m p : Nat) (e : ChainEntry) : ChainEntry :=
  if e.scored t m p = e then e else (e.scored t m p).graded

/-- Table 7-3: the class 1 event of a change of hop state. -/
def hopEvent (p : Nat) (before after : HopState) : Option Event :=
  if before = after then none
  else match after with
    | .healthy => some (.hopRecovered p)
    | .degraded => some (.hopDegraded p)
    | .isolated => some (.hopIsolated p)

/-- R124: the Monitor grades hops 1 to m. -/
def State.gradeHop (t : Trail) (m : Nat) (s : State) (p : Nat) : State :=
  if p ≤ m then s.setEntry p ((s.entry p).afterTrail t m p) else s

/-- An event, if there is one, handed to the Router. -/
def State.raise? (e : Option Event) (s : State) : State :=
  match e with
  | some e => s.raise e
  | none => s

/-- Whether some hop's state differs between two chain tables. -/
def hopsDiffer (old new : ChainManager) : Bool := positions.any fun p => (old.entry p).hopState != (new.entry p).hopState

/-- R132: the results of a trail's hop changes: events in ascending hop order, then one recomputation of cause sets.
The Chain Manager's part of the report is taken at the end of the reading (R116). -/
def State.reportHops (old s : State) : State :=
  let s1 := positions.foldl (fun s p => s.raise? (hopEvent p (old.entry p).hopState (s.entry p).hopState)) s
  if hopsDiffer old.chain s.chain then s1.recompute else s1

/-- What the Hop Health Monitor takes of a trail arrival. -/
def State.readHops (a : Arrival) (s : State) : State :=
  State.reportHops s (positions.foldl (State.gradeHop a.trail s.chain.endM) s)

/-- ISOLATION_RECOVERY (R131, R132): a hop whose clean run has reached 256 leaves ISOLATED. -/
def State.recoverHop (p : Nat) (s : State) : State :=
  State.reportHops s (s.setEntry p (s.entry p).recovered)

end Sys2Proof.Machine
end

