-- ==== Sys2Proof/Machine/Operands.lean ====
section
/-! DEFINITION. The operand forms of the requests: each field of a body as the value its owner works with, or none where
the field-value check refuses it with BAD_VALUE (R45 to R48, R51, R140, R162, R164, R179). -/

namespace Sys2Proof.Machine

/-- A handle field, 0–31 (R19, R46). -/
def handleOf (b : Byte) : Option Handle :=
  if h : b.toNat < 32 then some ⟨b.toNat, h⟩ else none

/-- A position field, 0–15 (R120, R164). -/
def positionOf (b : Byte) : Option (Fin 16) :=
  if h : b.toNat < 16 then some ⟨b.toNat, h⟩ else none

/-- A lane count field, 1–16 (R45, R46). -/
def lanesOf (b : Byte) : Option Nat :=
  if 1 ≤ b.toNat ∧ b.toNat ≤ 16 then some b.toNat else none

/-- A draft index field, 0–7 (R48, R50). -/
def indexOf (b : Byte) : Option Nat :=
  if b.toNat ≤ 7 then some b.toNat else none

/-- The flags of a COMMIT (R51, Table 11-2). -/
def flagsOf (b : Byte) : Option CommitFlags :=
  match b.toNat with
  | 0 => some .none
  | 1 => some .repack
  | _ => none

/-- A setting by its code (Table 11-2). -/
def settingOf (b : Byte) : Option Setting :=
  match b.toNat with
  | 1 => some .switchLead
  | 2 => some .prepareTimeout
  | 3 => some .retryLimit
  | 4 => some .probeInterval
  | 5 => some .eventFetch
  | _ => none

/-- The Min–Max range of a setting (Table 3-6). -/
def Setting.inRange (k : Setting) (v : Nat) : Bool :=
  match k with
  | .switchLead => decide (2 ≤ v) && decide (v ≤ 15)
  | .prepareTimeout => decide (32 ≤ v) && decide (v ≤ 255)
  | .retryLimit => decide (v ≤ 3)
  | .probeInterval => decide (16 ≤ v) && decide (v ≤ 255)
  | .eventFetch => decide (v ≤ 1)

/-- The setting and value of a DRAFT_SET (R47). -/
def settingSetOf (a : SetArgs) : Option (Setting × Nat) :=
  match settingOf a.setting with
  | some k => if k.inRange a.value.toNat then some (k, a.value.toNat) else none
  | none => none

/-- The sink list of a DRAFT_OPEN as given: the first `sinkCount` slots (R45; Table 11-4, note 1). -/
def sinksGiven (a : OpenArgs) : List Nat := (a.slots.toList.take a.sinkCount.toNat).map BitVec.toNat

/-- The field-value check of a DRAFT_OPEN (R45): its source, its sinks as given, its lanes. -/
def openOf (a : OpenArgs) : Option (Nat × List Nat × Nat) :=
  if a.source.toNat ≤ 15 ∧ 1 ≤ a.sinkCount.toNat ∧ a.sinkCount.toNat ≤ 4 ∧ (∀ k ∈ sinksGiven a, k ≤ 15) ∧ (sinksGiven a).Nodup
      ∧ a.source.toNat ∉ sinksGiven a ∧ 1 ≤ a.lanes.toNat ∧ a.lanes.toNat ≤ 16 then
    some (a.source.toNat, sinksGiven a, a.lanes.toNat)
  else none

/-- Positions in ascending order, without duplicates (R3). -/
def ascending (ps : List Nat) : List Nat := (List.range 16).filter fun p => ps.contains p

/-- Check 1 of R140 for a read: target 1–15, length 1–4, the last byte at most 255. -/
def readOf (a : ReadArgs) : Option RemoteRequest :=
  if 1 ≤ a.target.toNat ∧ a.target.toNat ≤ 15 ∧ 1 ≤ a.length.toNat ∧ a.length.toNat ≤ 4
      ∧ a.address.toNat + a.length.toNat ≤ 256 then
    some { kind := .read, target := some a.target.toNat, address := a.address.toNat, length := a.length.toNat, data := [],
           tag := a.tag, session := 0, retries := 0 }
  else none

/-- Check 1 of R140 for a write: target 1–15 or ALL (FFh), length 1–4, the last byte at most 255, exactly length data
bytes. -/
def writeOf (a : WriteArgs) : Option RemoteRequest :=
  if (a.target = 0xFF#8 ∨ (1 ≤ a.target.toNat ∧ a.target.toNat ≤ 15)) ∧ 1 ≤ a.length.toNat ∧ a.length.toNat ≤ 4
      ∧ a.address.toNat + a.length.toNat ≤ 256 ∧ a.data.length = a.length.toNat then
    some { kind := if a.target = 0xFF#8 then .writeAll else .write
           target := if a.target = 0xFF#8 then none else some a.target.toNat
           address := a.address.toNat, length := a.length.toNat, data := a.data, tag := a.tag, session := 0, retries := 0 }
  else none

/-- The count of a READ_QUEUE, 1–4 (R162). -/
def countOf (b : Byte) : Option Nat :=
  if 1 ≤ b.toNat ∧ b.toNat ≤ 4 then some b.toNat else none

end Sys2Proof.Machine
end

