-- ==== Sys2Proof/Machine/Remote.lean ====
section
/-! DEFINITION. The Remote Access Unit (sections 8.2 to 8.4): head check, sending, answers, losses, session end,
restart. -/

namespace Sys2Proof.Machine

/-- A client's answer of the cycle: the valid answer, when that client was granted the cycle (R97). -/
def Arrival.answerFor (a : Arrival) (c : Client) : Option Answer :=
  if a.record.client = some c then a.answer else none

/-- R146: a result handed to the Router for a request's port. -/
def State.remoteResult (p : Port) (r : RemoteRequest) (n : Notice) (s : State) : State := s.notifySession p r.session n

/-- R146: a request fails. -/
def State.failRemote (p : Port) (reason : RemoteReason) (s : State) (r : RemoteRequest) : State :=
  s.remoteResult p r (.remoteFailed r.tag reason)

/-! ### Holding and sending (R139, R141, R142) -/

/-- R139, R147: the requests a port holds; an outstanding request marked discarded counts for no session. -/
def State.remoteHeld (s : State) (p : Port) : Nat :=
  (s.remoteQueue p).length + (match s.remote.outstanding with
    | some o => if o.port = p ∧ o.discarded = false then 1 else 0
    | none => 0)

/-- R141: whether a request can be sent. -/
def ChainManager.sendable (c : ChainManager) (r : RemoteRequest) : Bool :=
  match r.target with
  | some t => c.reachable t
  | none => !c.readyPositions.isEmpty

/-- R141: the head check of one port's queue. -/
def State.headCheck (s : State) (p : Port) : State :=
  let q := s.remoteQueue p
  (q.takeWhile fun r => !s.chain.sendable r).foldl (State.failRemote p .targetUnreachable)
    (s.setRemoteQueue p (q.dropWhile fun r => !s.chain.sendable r))

/-- R141: the head check of a cycle start, H0 first. -/
def State.headChecks (s : State) : State := allPorts.foldl State.headCheck s

/-- R142, R88: the control message of a request. -/
def RemoteRequest.message (r : RemoteRequest) : ControlMsg :=
  { target := match r.target with
      | some t => t
      | none => 0
    kind := match r.kind with
      | .read => .remoteRead
      | .write => .remoteWrite
      | .writeAll => .remoteWriteAll
    payload := padTo 8 (byteOf r.address :: byteOf r.length :: r.data) }

/-- R142: the request becomes the outstanding record. -/
def State.outstandingOf (s : State) (p : Port) (r : RemoteRequest) : Outstanding :=
  { request := r, port := p, cycle := s.stamp, expected := if r.kind = .writeAll then s.chain.readyPositions else [],
    discarded := false }

/-- R142: a granted port's head request is sent. -/
def State.sendRemote (p : Port) (s : State) : State × ControlMsg :=
  match s.remoteQueue p with
  | r :: rest => ((s.setRemoteQueue p rest).setOutstanding (some (s.outstandingOf p r)), r.message)
  | [] => (s, ControlMsg.idle)

/-! ### Answers (R143, R144) -/

/-- R144: the positions of an expected set whose valid entries show control-seen. -/
def seenCount (t : Trail) (expected : List Nat) : Nat :=
  expected.countP fun p => match t.valid p with
    | some f => f.controlSeen
    | none => false

/-- R143, R144: the result of an attempt: a notice, or none for a failed attempt. -/
def Outstanding.success (a : Arrival) (o : Outstanding) : Option Notice :=
  match o.request.kind with
  | .writeAll =>
    if seenCount a.trail o.expected = o.expected.length then some (.remoteDone o.request.tag none) else none
  | .read =>
    match a.answerFor (.host o.port) with
    | some ans => some (.remoteDone o.request.tag (some (ans.payload.take o.request.length)))
    | none => none
  | .write =>
    match a.answerFor (.host o.port) with
    | some _ => some (.remoteDone o.request.tag none)
    | none => none

/-- R143, R144: the notice of a request that fails with its retries at the limit. -/
def Outstanding.exhausted (a : Arrival) (o : Outstanding) : Notice :=
  match o.request.kind with
  | .writeAll => .remotePartial o.request.tag (seenCount a.trail o.expected)
  | _ => .remoteFailed o.request.tag .noAnswer

/-- R143: the request goes back to the head of its port's queue for a retry. -/
def State.retryRemote (o : Outstanding) (s : State) : State :=
  s.setRemoteQueue o.port ({ o.request with retries := o.request.retries + 1 } :: s.remoteQueue o.port)

/-- R143, R144: an outstanding request, not discarded, at its trail arrival. -/
def State.answerRemote (a : Arrival) (o : Outstanding) (s : State) : State :=
  match o.success a with
  | some n => s.remoteResult o.port o.request n
  | none =>
    if o.request.retries < s.switch.settings.retryLimit then s.retryRemote o
    else s.remoteResult o.port o.request (o.exhausted a)

/-- What the Remote Access Unit takes of a trail arrival: the outstanding record is removed in every case. -/
def State.readRemote (a : Arrival) (s : State) : State :=
  match s.remote.outstanding with
  | some o => if o.discarded then s.setOutstanding none else (s.setOutstanding none).answerRemote a o
  | none => s

/-! ### Losses, session end, restart (R145, R147, R148) -/

/-- R145: whether a queued request fails at a report of newly LOST positions. -/
def RemoteRequest.lostTo (r : RemoteRequest) (ps : List Nat) : Bool :=
  match r.target with
  | some t => ps.contains t
  | none => false

/-- R145: one port's queue at a loss report. -/
def State.loseRemote (ps : List Nat) (s : State) (p : Port) : State :=
  let q := s.remoteQueue p
  (q.filter fun r => r.lostTo ps).foldl (State.failRemote p .targetUnreachable)
    (s.setRemoteQueue p (q.filter fun r => !r.lostTo ps))

/-- R147: the outstanding record of an ended session is marked discarded. -/
def Outstanding.endSession (p : Port) (o : Outstanding) : Outstanding :=
  if o.port = p then { o with discarded := true } else o

/-- R147: a session end empties the port's remote queue. -/
def State.endRemote (p : Port) (s : State) : State :=
  (s.setRemoteQueue p []).setOutstanding (s.remote.outstanding.map (Outstanding.endSession p))

/-- R148: the requests of one port that fail at a restart, the outstanding one first. One already marked discarded gives
no notice (R147). -/
def State.restartFails (s : State) (p : Port) : List RemoteRequest :=
  (match s.remote.outstanding with
    | some o => if o.port = p ∧ o.discarded = false then [o.request] else []
    | none => []) ++ s.remoteQueue p

/-- R148: an accepted restart fails every request of every port. -/
def State.restartRemote (s : State) : State :=
  allPorts.foldl (fun s' p => (s.restartFails p).foldl (State.failRemote p .targetUnreachable) s')
    (s.setRemote { queues := Tab.fill 4 [], outstanding := none })

end Sys2Proof.Machine
end

