-- ==== Sys2Proof/Machine/Fetch.lean ====
section
/-! DEFINITION. The Event Fetch Unit (section 8.5). -/

namespace Sys2Proof.Machine

/-- R150: whether a wanted position is eligible. -/
def State.eligible (s : State) (p : Nat) : Bool := s.fetch.wanted.contains p && s.chain.reachable p

/-- R150: the position the fetch client takes: the first eligible one in ascending order after the last fetched,
wrapping from 15 to 1. -/
def State.nextFetch (s : State) : Option Nat :=
  ((positions.filter fun p => decide (s.fetch.lastFetched < p)) ++ positions.filter fun p => decide (p ≤ s.fetch.lastFetched)).find?
    s.eligible

/-- R150: the fetch client has work. -/
def State.fetchWork (s : State) : Bool := s.switch.settings.eventFetch && s.nextFetch.isSome

/-- R150: the granted fetch client sends EVENT_TAKE. -/
def State.sendFetch (s : State) : State × ControlMsg :=
  match s.nextFetch with
  | some p =>
    (s.setFetch { s.fetch with lastFetched := p, outstanding := some p },
     { target := p, kind := .eventTake, payload := List.replicate 8 0#8 })
  | none => (s, ControlMsg.idle)

/-- A position leaves the fetch-wanted set. -/
def FetchUnit.unwant (p : Nat) (x : FetchUnit) : FetchUnit := { x with wanted := x.wanted.filter (· != p) }

/-- A position joins the fetch-wanted set, which stays ascending and without duplicates. -/
def FetchUnit.want (x : FetchUnit) (p : Nat) : FetchUnit := { x with wanted := ascending (p :: x.wanted) }

/-- R151, Table 11-10: the event of an event record given up by a position. -/
def eventOf (p : Nat) (payload : List Byte) : Option Event :=
  match payload with
  | code :: d1 :: d0 :: _ => some (.endpoint p code.toNat (word16 d1 d0))
  | _ => none

/-- R151: the answer to an EVENT_TAKE to a position. -/
def State.takeEvent (p : Nat) (ans : Option Answer) (s : State) : State :=
  match ans with
  | some a =>
    let s1 := s.setFetch (s.fetch.unwant p)
    if a.result = .ok then
      match eventOf p a.payload with
      | some e => s1.raise e
      | none => s1
    else s1
  | none => s

/-- R151: the answer of the cycle is taken and the fetch outstanding removed. -/
def State.answerFetch (a : Arrival) (s : State) : State :=
  match s.fetch.outstanding with
  | some p => (s.setFetch { s.fetch with outstanding := none }).takeEvent p (a.answerFor .fetch)
  | none => s

/-- R149: whether a trail adds a position to the fetch-wanted set. -/
def ChainManager.wants (c : ChainManager) (t : Trail) (p : Nat) : Bool :=
  c.isReady p && (match t.valid p with
    | some f => f.eventPending
    | none => false)

/-- R149: the pending flags of a trail are read while event fetch is on. Where a settings batch turned it on within this
trail arrival, ahead of this reading, R152 leaves open whether the trail is one of those that follow: it is read here, the
model's choice (assumption 36). -/
def State.readPending (t : Trail) (s : State) : State :=
  if s.switch.settings.eventFetch then s.setFetch ((positions.filter (s.chain.wants t)).foldl FetchUnit.want s.fetch) else s

/-- What the Event Fetch Unit takes of a trail arrival: its answer first, then the flags (R149). -/
def State.readFetch (a : Arrival) (s : State) : State := (s.answerFetch a).readPending a.trail

/-- R152: newly LOST positions leave the fetch-wanted set. -/
def State.loseFetch (ps : List Nat) (s : State) : State :=
  s.setFetch (ps.foldl (fun x p => x.unwant p) s.fetch)

end Sys2Proof.Machine
end

