-- ==== Sys2Proof/Machine/Placement.lean ====
section
/-! DEFINITION. Lane Placement (chapter 2): direction, first fit, the checks of each op, map lines and gate, repack. -/

namespace Sys2Proof.Machine

/-! ### Placements and occupancy (R21, R22) -/

/-- The first lane of a stream of a plan in one pass. -/
def PlanEntry.first (e : PlanEntry) : Pass → Option Nat
  | .down => e.down
  | .up => e.up

/-- The stream with another first lane in one pass. -/
def PlanEntry.setFirst (e : PlanEntry) (pass : Pass) (f : Option Nat) : PlanEntry :=
  match pass with
  | .down => { e with down := f }
  | .up => { e with up := f }

/-- Whether the stream's run in a pass covers a lane. -/
def PlanEntry.covers (e : PlanEntry) (pass : Pass) (lane : Nat) : Bool :=
  match e.first pass with
  | some f => decide (f ≤ lane) && decide (lane < f + e.lanes)
  | none => false

/-- The occupancy of a pass: the handle holding a lane, or none when it is free (R21). -/
def holder (w : Plan) (pass : Pass) (lane : Nat) : Option Handle :=
  (w.find? fun e => e.covers pass lane).map PlanEntry.handle

/-- Whether a lane of a pass is free in a plan. -/
def laneFree (w : Plan) (pass : Pass) (lane : Nat) : Bool := !w.any fun e => e.covers pass lane

/-- The free count of a pass, 0–64 (R22). -/
def freeCount (w : Plan) (pass : Pass) : Nat := (List.range Config.lanes).countP fun i => laneFree w pass i

/-- Whether lanes f to f + n − 1 all lie in the pass and are free. -/
def runFree (w : Plan) (pass : Pass) (f n : Nat) : Bool :=
  decide (f + n ≤ Config.lanes) && (List.range' f n).all fun i => laneFree w pass i

/-- R25: the lowest first lane at which a run of n lanes fits. -/
def firstFit (w : Plan) (pass : Pass) (n : Nat) : Option Nat :=
  (List.range Config.lanes).find? fun f => runFree w pass f n

/-! ### Direction and gate (R23, R24) -/

/-- R23: the passes a stream needs, down before up. -/
def passesOf (source : Nat) (sinks : List Nat) : List Pass :=
  (if sinks.any (fun k => decide (source < k)) then [.down] else [])
    ++ (if sinks.any (fun k => decide (k < source)) then [.up] else [])

/-- R23: the pass that serves a sink. -/
def servedBy (source sink : Nat) : Pass := if source < sink then .down else .up

/-- R24: the head's gate of a plan. -/
def gateOf (w : Plan) : LaneSets :=
  { down := (List.range Config.lanes).filter fun i => w.any fun e => e.source == 0 && e.covers .down i
    up := (List.range Config.lanes).filter fun i => w.any fun e => e.sinks.contains 0 && e.covers .up i }

/-! ### Map lines (R37, R38) -/

/-- The role an endpoint has in a stream's placement in a pass, if any (R37). -/
def PlanEntry.roleAt (e : PlanEntry) (p : Nat) (pass : Pass) : Option Role :=
  if e.source = p then some .source
  else if e.sinks.contains p ∧ servedBy e.source p = pass then some .sink
  else none

/-- The line a stream gives an endpoint for the placement that begins at a lane of a pass, if any (R37). -/
def PlanEntry.lineAt (e : PlanEntry) (p : Nat) (pass : Pass) (f : Nat) : Option MapLine :=
  if e.first pass = some f then
    (e.roleAt p pass).map fun role => { handle := e.handle, pass := pass, first := f, lanes := e.lanes, role := role }
  else none

/-- R37: the map of an endpoint in a plan: DOWN lines before UP lines, each by ascending first lane. -/
def mapOf (w : Plan) (p : Nat) : List MapLine :=
  [Pass.down, Pass.up].flatMap fun pass =>
    (List.range Config.lanes).flatMap fun f => w.filterMap fun e => e.lineAt p pass f

/-! ### Totals (R34) -/

/-- R34: the source total of an endpoint; a split stream adds its lanes twice. -/
def sourceTotal (w : Plan) (p : Nat) : Nat :=
  (w.map fun e => if e.source = p then e.lanes * (e.down.toList.length + e.up.toList.length) else 0).sum

/-- R34: the sink total of an endpoint. -/
def sinkTotal (w : Plan) (p : Nat) : Nat :=
  (w.map fun e => if e.sinks.contains p ∧ (e.first (servedBy e.source p)).isSome then e.lanes else 0).sum

/-- The source limit of an endpoint's identity record (R34). -/
def ChainManager.sourceLimit (c : ChainManager) (p : Nat) : Nat :=
  match (c.entry p).identity with
  | some i => i.sourceLimit
  | none => 0

/-- The sink limit of an endpoint's identity record (R34). -/
def ChainManager.sinkLimit (c : ChainManager) (p : Nat) : Nat :=
  match (c.entry p).identity with
  | some i => i.sinkLimit
  | none => 0

/-! ### Repack (R39) -/

/-- The lanes held in a pass by the runs that begin below a lane. -/
def lanesBelow (w : Plan) (pass : Pass) (f : Nat) : Nat :=
  (w.map fun e => match e.first pass with
    | some g => if g < f then e.lanes else 0
    | none => 0).sum

/-- R39: compaction of a pass. Each run, in ascending order of its first lane, begins where the runs before it end. -/
def compact (w : Plan) (pass : Pass) : Plan :=
  w.map fun e => match e.first pass with
    | some f => e.setFirst pass (some (lanesBelow w pass f))
    | none => e

/-! ### Placing (R25, R29, R33, R40) -/

/-- A new run of n lanes by first fit, or after a repack of the pass when the commit carries REPACK (R33, R39). -/
def placeRun (repack : Bool) (n : Nat) (w : Plan) (pass : Pass) : Except FailReason (Plan × Nat) :=
  match firstFit w pass n with
  | some f => .ok (w, f)
  | none =>
    if repack then
      match firstFit (compact w pass) pass n with
      | some f => .ok (compact w pass, f)
      | none => .error .fragmented
    else .error .fragmented

/-- The run of a grow from l to n lanes in one pass, over the plan without the growing stream: in place, else by
relocation, else through repack (R29, R40). -/
def growRun (repack : Bool) (e : PlanEntry) (n : Nat) (w : Plan) (pass : Pass) : Except FailReason (Plan × Nat) :=
  match e.first pass with
  | some f =>
    if runFree w pass (f + e.lanes) (n - e.lanes) then .ok (w, f) else placeRun repack n w pass
  | none => placeRun repack n w pass

/-- The runs of a stream in the passes it needs, one pass after the other. -/
def placePasses (run : Plan → Pass → Except FailReason (Plan × Nat)) :
    List Pass → Plan → PlanEntry → Except FailReason (Plan × PlanEntry)
  | [], w, e => .ok (w, e)
  | pass :: rest, w, e =>
    match run w pass with
    | .ok (w', f) => placePasses run rest w' (e.setFirst pass (some f))
    | .error r => .error r

/-- A plan with one more stream, kept ascending by handle. -/
def insertEntry (e : PlanEntry) : Plan → Plan
  | [] => [e]
  | x :: w => if e.handle < x.handle then e :: x :: w else x :: insertEntry e w

/-- A plan without the stream of a handle. -/
def without (w : Plan) (h : Handle) : Plan := w.filter fun e => e.handle != h

/-! ### The checks of an op (R31 to R36) -/

/-- Checks 1 and 2: every endpoint READY, none beyond an ISOLATED hop (R31). -/
def chainCheck (c : ChainManager) (source : Nat) (sinks : List Nat) : Option FailReason :=
  if (endpointsOf source sinks).any (fun p => !c.isReady p) then some .notReady
  else if c.beyondIsolated (farthestOf source sinks) then some .unreachable
  else none

/-- Check 3: a needed pass has fewer free lanes, the stream's own run released, than the run asks (R33). -/
def lanesCheck (w : Plan) (passes : List Pass) (n : Nat) : Bool := passes.any fun pass => decide (freeCount w pass < n)

/-- Checks 5 and 6 on the plan as the op would leave it (R34). The head has no limits. -/
def limitCheck (c : ChainManager) (w : Plan) (source : Nat) (sinks : List Nat) : Option FailReason :=
  if source ≠ 0 ∧ c.sourceLimit source < sourceTotal w source then some .sourceLimit
  else if sinks.any (fun k => k != 0 && decide (c.sinkLimit k < sinkTotal w k)) then some .sinkLimit
  else none

/-- Check 7 on the plan as an OPEN would leave it (R35). -/
def mapCheck (w : Plan) (source : Nat) (sinks : List Nat) : Bool :=
  (endpointsOf source sinks).any fun p => decide (Config.mapSize < (mapOf w p).length)

/-- The working plan of a batch (R21). -/
structure Working where
  plan : Plan
  closed : List Handle
  deriving DecidableEq, Repr

/-- An OPEN op (R26): `e` is the stream without placements. -/
def openOp (c : ChainManager) (repack : Bool) (e : PlanEntry) (w : Working) : Except FailReason Working :=
  match chainCheck c e.source e.sinks with
  | some r => .error r
  | none =>
    if lanesCheck w.plan (passesOf e.source e.sinks) e.lanes then .error .noLanes
    else
      match placePasses (placeRun repack e.lanes) (passesOf e.source e.sinks) w.plan e with
      | .error r => .error r
      | .ok (others, e') =>
        match limitCheck c (insertEntry e' others) e.source e.sinks with
        | some r => .error r
        | none =>
          if mapCheck (insertEntry e' others) e.source e.sinks then .error .mapFull
          else .ok { w with plan := insertEntry e' others }

/-- The passes in which a stream of a plan has a placement, down before up. -/
def PlanEntry.passes (e : PlanEntry) : List Pass :=
  (if e.down.isSome then [.down] else []) ++ (if e.up.isSome then [.up] else [])

/-- A shrink: each run keeps its first lane and gives up its top lanes (R28). -/
def shrinkOp (e : PlanEntry) (n : Nat) (w : Working) : Working :=
  { w with plan := insertEntry { e with lanes := n } (without w.plan e.handle) }

/-- A grow (R29, R33, R40), checks 3 to 6. -/
def growOp (c : ChainManager) (repack : Bool) (e : PlanEntry) (n : Nat) (w : Working) : Except FailReason Working :=
  if lanesCheck (without w.plan e.handle) e.passes n then .error .noLanes
  else
    match placePasses (growRun repack e n) e.passes (without w.plan e.handle) e with
    | .error r => .error r
    | .ok (others, e') =>
      match limitCheck c (insertEntry { e' with lanes := n } others) e.source e.sinks with
      | some r => .error r
      | none => .ok { w with plan := insertEntry { e' with lanes := n } others }

/-- A RESIZE(n) op; `named` is the named stream when it is present (R28, R29, R31, R36). -/
def resizeOp (c : ChainManager) (repack : Bool) (named : Option PlanEntry) (n : Nat) (w : Working) :
    Except FailReason Working :=
  match named with
  | none => .error .streamGone
  | some e =>
    match chainCheck c e.source e.sinks with
    | some r => .error r
    | none => if n ≤ e.lanes then .ok (shrinkOp e n w) else growOp c repack e n w

/-- The removal of a stream from the working plan (R27). -/
def removeOp (h : Handle) (w : Working) : Working :=
  { plan := without w.plan h, closed := if w.closed.contains h then w.closed else w.closed ++ [h] }

/-- A CLOSE op; `forced` are the forced closes of the batch, `named` the named stream when it is present (R27, R36). -/
def closeOp (forced : List Handle) (named : Option PlanEntry) (h : Handle) (w : Working) : Except FailReason Working :=
  if forced.contains h ∧ w.closed.contains h then .ok w
  else
    match named with
    | some _ => .ok (removeOp h w)
    | none => .error .streamGone

end Sys2Proof.Machine
end

