-- ==== Sys2Proof/Machine/Streams.lean ====
section
/-! DEFINITION. What a batch, a switch cycle and an abandonment do to one stream record (R5 to R10, R13, R14). -/

namespace Sys2Proof.Machine

/-- The close cause a release mark becomes (R5). -/
def ReleaseMark.cause : ReleaseMark → CloseCause
  | .replaced => .replaced
  | _ => .released

/-- The release mark a pending change gives back at an abandonment (R10). -/
def PendingChange.mark : PendingChange → ReleaseMark
  | .close .released => .released
  | .close .replaced => .replaced
  | _ => .none

/-- R5, forced close: the mark goes into the pending change. -/
def Stream.forcedOut (r : Stream) : Stream :=
  { r with state := .switchingOut, change := .close r.mark.cause, mark := .none }

/-- R5: an accepted op's change to the stream it names. A CLOSE of a stream that a forced close takes out is satisfied. -/
def Stream.accepted (r : Stream) : DraftEntry → Stream
  | .opening _ _ _ _ _ => { r with state := .switchingIn }
  | .resizing _ n => { r with change := .resize n }
  | .closing _ => if r.state = .switchingOut then r else { r with state := .switchingOut, change := .close .owner }
  | .setting _ _ => r

/-- The placements of a stream of a plan, both absent when the plan has no such stream. -/
def placementOf (w : Plan) (h : Handle) : Option Nat × Option Nat :=
  match w.find? fun e => e.handle == h with
  | some e => (e.down, e.up)
  | none => (none, none)

/-- Whether a LIVE or SUSPENDED stream is moved by a new plan: a first lane differs (R9). -/
def Stream.movedBy (r : Stream) (w : Plan) (h : Handle) : Bool :=
  (r.state == .live || r.state == .suspended) && (r.down, r.up) != placementOf w h

/-- The record with the placements of the plan just made active, whose epoch is `e` (R2). -/
def Stream.placed (w : Plan) (h : Handle) (e : Epoch) (r : Stream) : Stream :=
  { r with down := (placementOf w h).1, up := (placementOf w h).2, placedEpoch := e }

/-- R6 to R9: the record after the switch cycle that makes plan `w` active under epoch `e`. -/
def Stream.atSwitch (w : Plan) (h : Handle) (e : Epoch) (r : Stream) : Stream :=
  match r.state with
  | .free => r
  | .staged => r
  | .switchingIn =>
    { r.placed w h e with change := .none, state := if r.causes.isEmpty then .live else .suspended : Stream }.orphanMarked
  | .switchingOut => Stream.free
  | .live | .suspended =>
    match r.change with
    | .resize n => { r.placed w h e with lanes := n, change := .none }
    | _ => if r.movedBy w h then r.placed w h e else r

/-- R6, R8, R9: the notice the switch cycle gives the owner. -/
def Stream.switchNotice (w : Plan) (h : Handle) (r : Stream) : Option Notice :=
  match r.state with
  | .free => none
  | .staged => none
  | .switchingIn => if r.causes.isEmpty then none else some (.streamSuspended h r.causes)
  | .switchingOut =>
    match r.change with
    | .close .released => some (.streamClosed h .released)
    | .close .replaced => some (.streamClosed h .replaced)
    | _ => none
  | .live | .suspended =>
    if r.movedBy w h then some (.streamMoved h (placementOf w h).1 (placementOf w h).2) else none

/-- R10: the record after the abandonment of the switch that carried its change. -/
def Stream.restored (r : Stream) : Stream :=
  match r.state with
  | .free => r
  | .staged => r
  | .switchingIn => { r with state := .staged, down := none, up := none, change := .none, mark := .none }
  | .switchingOut =>
    { r with state := if r.causes.isEmpty then .live else .suspended, mark := r.change.mark.max r.mark,
             change := .none : Stream }.orphanMarked
  | .live | .suspended =>
    match r.change with
    | .resize _ => { r with change := .none : Stream }.orphanMarked
    | _ => r

/-- R13: a stream of the ended session becomes an orphan; a LIVE or SUSPENDED one without a mark takes RELEASED. -/
def Stream.orphaned (r : Stream) : Stream := { r with orphan := true : Stream }.orphanMarked

/-- R14: whether a REPLACED mark reaches the stream when the unit at a position is replaced. -/
def Stream.replacedAt (r : Stream) (q : Nat) : Bool :=
  (r.state == .switchingIn || r.state == .live || r.state == .suspended || r.state == .switchingOut)
    && (endpointsOf r.source r.sinks).contains q

end Sys2Proof.Machine
end

