-- ==== Sys2Proof/Machine/Batch.lean ====
section
/-! DEFINITION. The Batcher (chapter 3): when a batch forms, validation, and the three outcomes of Table 3-7. -/

namespace Sys2Proof.Machine

/-- The streams that carry a release mark, in ascending handle order. -/
def State.marked (s : State) : List Handle := allHandles.filter fun h => (s.stream h).mark != .none

/-- R56: whether the conditions for a batch hold. -/
def State.batchDue (s : State) : Bool :=
  s.switch.phase == .idle && (!s.commits.isEmpty || !s.marked.isEmpty) && !s.chain.resyncing

/-! ### Validation (R57, R58) -/

/-- What validation has decided so far. -/
structure Validation where
  work : Working
  settings : Settings
  accepted : List CommitEntry
  rejected : List (CommitEntry × Nat × FailReason)
  deriving DecidableEq, Repr

/-- R36: the named stream of a RESIZE or CLOSE when it is present for a commit. -/
def State.named (s : State) (c : CommitEntry) (w : Working) (h : Handle) : Option PlanEntry :=
  if w.closed.contains h = false ∧ (s.stream h).belongsTo c.port c.session = true then
    w.plan.find? fun e => e.handle == h
  else none

/-- The stream of a record as it enters the working plan, without placements (R26). -/
def Stream.toPlan (h : Handle) (r : Stream) : PlanEntry :=
  { handle := h, owner := r.owner, source := r.source, sinks := r.sinks, lanes := r.lanes, down := none, up := none }

/-- One op of a commit against the working plan (R57). A SET op is recorded, not handed to Lane Placement. -/
def State.validateOp (s : State) (forced : List Handle) (c : CommitEntry) (w : Working) :
    DraftEntry → Except FailReason Working
  | .opening h _ _ _ _ => openOp s.chain (c.flags == .repack) ((s.stream h).toPlan h) w
  | .closing h => closeOp forced (s.named c w h) h w
  | .resizing h n => resizeOp s.chain (c.flags == .repack) (s.named c w h) n w
  | .setting _ _ => .ok w

/-- The ops of a commit in draft order; the first that fails ends it with its index and reason (R57, R58). -/
def State.validateOps (s : State) (forced : List Handle) (c : CommitEntry) :
    Nat → List DraftEntry → Working → Except (Nat × FailReason) Working
  | _, [], w => .ok w
  | i, op :: ops, w =>
    match s.validateOp forced c w op with
    | .ok w' => s.validateOps forced c (i + 1) ops w'
    | .error r => .error (i, r)

/-- The pending settings of an accepted commit, written in draft order (R57). -/
def applySets (x : Settings) (ops : List DraftEntry) : Settings :=
  ops.foldl (fun x op => match op with
    | .setting k v => x.set k v
    | _ => x) x

/-- One commit of the queue: all or nothing (R58). -/
def State.validateCommit (s : State) (forced : List Handle) (v : Validation) (c : CommitEntry) : Validation :=
  match s.validateOps forced c 0 (s.draft c.port).entries v.work with
  | .ok w => { v with work := w, settings := applySets v.settings (s.draft c.port).entries, accepted := v.accepted ++ [c] }
  | .error (i, r) => { v with rejected := v.rejected ++ [(c, i, r)] }

/-- R57: the whole batch, forced closes first, then the commits in queue order. -/
def State.validate (s : State) : Validation :=
  s.commits.foldl (s.validateCommit s.marked)
    { work := s.marked.foldl (fun w h => removeOp h w) { plan := s.switch.plan, closed := [] }
      settings := s.switch.settings, accepted := [], rejected := [] }

/-! ### Outcomes (R58 to R62) -/

/-- The positions whose map differs between two plans (R38). -/
def differing (old new : Plan) : List Nat := positions.filter fun p => mapOf old p != mapOf new p

/-- Whether a batch needs a switch: some endpoint's map or the gate differs (Table 3-7). -/
def needsSwitch (old new : Plan) : Bool := !(differing old new).isEmpty || gateOf old != gateOf new

/-- The settings a batch changes, in the order of Table 3-6 (R59). -/
def changedSettings (old new : Settings) : List Setting := allSettings.filter fun k => old.get k != new.get k

/-- R59, R152: settings take effect. A change of event fetch, off or on, leaves the fetch-wanted set empty. -/
def State.takeSettings (x : Settings) (s : State) : State :=
  let s' := s.setSwitch { s.switch with settings := x }
  if s.switch.settings.eventFetch = x.eventFetch then s' else s'.setFetch { s.fetch with wanted := [] }

/-- R59: SETTINGS_CHANGED for each changed setting, to every ATTACHED port. -/
def State.announceSettings (ks : List Setting) (x : Settings) (s : State) : State :=
  ks.foldl (fun s k => s.notifyAll (.settingsChanged k (x.get k))) s

/-- R58: a rejected commit's draft returns to OPEN, and its owner gets COMMIT_REJECTED. -/
def State.reject (s : State) (x : CommitEntry × Nat × FailReason) : State :=
  (s.setDraft x.1.port { s.draft x.1.port with state := .opened, flags := none }).notifySession x.1.port x.1.session
    (.commitRejected x.2.1 x.2.2)

/-- R60: an accepted commit of a settings-only batch: its draft is EMPTY, its owner gets COMMIT_DONE(E, 0). -/
def State.completeCommit (s : State) (c : CommitEntry) : State :=
  (s.setDraft c.port Draft.empty).notifySession c.port c.session (.commitDone s.switch.epoch 0)

/-- R60: a batch that completes with settings only. -/
def State.completeSettings (v : Validation) (s : State) : State :=
  ((v.accepted.foldl State.completeCommit (s.takeSettings v.settings))).announceSettings
    (changedSettings s.switch.settings v.settings) v.settings

/-- R5: an accepted op's change to the Stream Table. -/
def State.acceptOp (s : State) (op : DraftEntry) : State :=
  match op.handle? with
  | some h => s.setStream h ((s.stream h).accepted op)
  | none => s

/-- R5, R61: an accepted commit of a switch batch: its draft is ACTIVE and its ops change their streams. -/
def State.acceptCommit (s : State) (c : CommitEntry) : State :=
  (s.draft c.port).entries.foldl State.acceptOp (s.setDraft c.port { s.draft c.port with state := .active })

/-- R5, R61: a marked stream taken into a switch batch. -/
def State.forceOut (s : State) (h : Handle) : State := s.setStream h (s.stream h).forcedOut

/-- R67: a transfer record at the hand-over. -/
def freshTransfer (w : Plan) (p : Nat) : Transfer :=
  { position := p, map := mapOf w p, status := .queued, nextIndex := 0, resends := 0, missed := false, settled := false }

/-- R67, R72: the Switch Engine takes a batch; an empty affected set completes PREPARE at once. -/
def SwitchEngine.takeBatch (b : Batch) (x : SwitchEngine) : SwitchEngine :=
  { x with batch := some b, token := x.token + 1, progress := 0, transfers := b.affected.map (freshTransfer b.nextPlan),
           queue := b.affected, phase := if b.affected.isEmpty then .countdown else .prepare,
           countdown := if b.affected.isEmpty then b.lead else 0 }

/-- The record of a batch that needs a switch (Table 3-8, R62). -/
def State.batchRecord (v : Validation) (s : State) : Batch :=
  { nextPlan := v.work.plan
    nextSettings := v.settings
    changed := changedSettings s.switch.settings v.settings
    affected := (differing s.switch.plan v.work.plan).filter s.chain.reachable
    commits := v.accepted.map fun c => (c.port, c.session)
    forced := s.marked
    stale := (differing s.switch.plan v.work.plan).filter fun p => !s.chain.reachable p && !(s.entry p).stale
    lead := s.switch.settings.switchLead }

/-- Stale marks set by a batch, each reported to the Stream Table (R62, R115). -/
def State.markStales (ps : List Nat) (s : State) : State := ps.foldl (State.setStale true) s

/-- R61: the hand-over of a batch that needs a switch. -/
def State.handOver (v : Validation) (s : State) : State :=
  let b := s.batchRecord v
  let s1 := v.accepted.foldl State.acceptCommit (b.forced.foldl State.forceOut s)
  let s2 := s1.markStales b.stale
  s2.setSwitch (s2.switch.takeBatch b)

/-- R56 to R62: the formation of a batch, one event. -/
def State.formBatch (s : State) : State :=
  let v := s.validate
  let s1 := v.rejected.foldl State.reject (s.setCommits [])
  if needsSwitch s.switch.plan v.work.plan then s1.handOver v
  else if v.accepted.isEmpty then s1
  else s1.completeSettings v

/-- R56: a batch forms when its conditions hold. -/
def State.formIfDue (s : State) : State := if s.batchDue then s.formBatch else s

end Sys2Proof.Machine
end

