-- ==== Sys2Proof/Machine/Switch.lean ====
section
/-! DEFINITION. The Switch Engine (chapter 4): what it reads of a trail, the switch cycle, abandonment, the end of the
settle window. -/

namespace Sys2Proof.Machine

/-! ### The switch cycle (R75 to R77) -/

/-- R63: the draft of an accepted commit at the switch cycle. -/
def State.endDraft (s : State) (c : Port × Nat) : State := s.setDraft c.1 Draft.empty

/-- The moved count of a switch (R76). -/
def State.movedCount (s : State) (w : Plan) : Nat := allHandles.countP fun h => (s.stream h).movedBy w h

/-- R77: the notices and the event of a switch cycle; `old` is the state before it. -/
def State.switchResults (old : State) (b : Batch) (s : State) : State :=
  let s1 := b.commits.foldl
    (fun s c => s.notifyCommit (old.draft c.1) c (.commitDone s.switch.epoch (old.movedCount b.nextPlan))) s
  let s2 := allHandles.foldl
    (fun s h => s.notifyOwner? (old.stream h) ((old.stream h).switchNotice b.nextPlan h)) s1
  (s2.announceSettings b.changed b.nextSettings).raise (.epochChanged s.switch.epoch)

/-- R75, R76: the changes of a switch cycle: epoch, plan, settings, streams, drafts. -/
def State.switchChanges (b : Batch) (s : State) : State :=
  let e := s.switch.epoch + 1
  let s1 := (s.setSwitch { s.switch with epoch := e, plan := b.nextPlan, phase := .settle, countdown := 0,
                                         settle := Config.settleTrails }).takeSettings b.nextSettings
  b.commits.foldl State.endDraft
    { s1 with streams := Tab.ofFn fun h => (s.stream h).atSwitch b.nextPlan h e }

/-- R75: whether the next cycle start is the switch cycle: the countdown has been carried down to 1. -/
def State.switchDue (s : State) : Bool := s.switch.phase == .countdown && s.switch.countdown == 0

/-- R75 to R77: the switch cycle, when it is due. -/
def State.switchCycle (s : State) : State :=
  match s.switch.batch with
  | some b => if s.switchDue then State.switchResults s b (s.switchChanges b) else s
  | none => s

/-! ### Abandonment (R80, R81) -/

/-- R63: the draft of an accepted commit at an abandonment. -/
def State.returnDraft (s : State) (c : Port × Nat) : State :=
  if (s.draft c.1).ended then s.discardDraft c.1
  else s.setDraft c.1 { s.draft c.1 with state := .opened, flags := none }

/-- R80, R62: the stale marks of the batch's stale list are removed, each removal reported to the Stream Table (R115). -/
def State.unmarkStales (ps : List Nat) (s : State) : State := ps.foldl (State.setStale false) s

/-- R80: the Switch Engine after an abandonment: the plan, the epoch and the settings stay. -/
def SwitchEngine.abandoned (x : SwitchEngine) : SwitchEngine :=
  { x with phase := .idle, token := x.token + 1, batch := none, transfers := [], queue := [], progress := 0, countdown := 0 }

/-- R80: the batch is undone in the Stream Table, the chain table, the Draft Store and the Switch Engine. -/
def State.undoBatch (b : Batch) (s : State) : State :=
  let s1 := ({ s with streams := s.streams.map Stream.restored }).unmarkStales b.stale
  let s2 := b.commits.foldl State.returnDraft s1
  s2.setSwitch s2.switch.abandoned

/-- R80, R81: the switch in PREPARE is abandoned; each accepted commit gets COMMIT_ABANDONED. -/
def State.abandon (reason : AbandonReason) (s : State) : State :=
  match s.switch.batch with
  | some b =>
    b.commits.foldl (fun t c => t.notifyCommit (s.draft c.1) c (.commitAbandoned reason)) (s.undoBatch b)
  | none => s

/-- R73: the report that positions became LOST reaches the Switch Engine. -/
def State.abandonOnLoss (ps : List Nat) (s : State) : State :=
  if s.switch.phase = .prepare ∧ (s.switch.transfers.any fun t => ps.contains t.position) = true then s.abandon .endpointLost
  else s

/-! ### The end of the settle window (R79) -/

/-- R79: whether an affected endpoint is handed to the Chain Manager at the end of the window. -/
def ChainManager.handedOver (c : ChainManager) (t : Transfer) : Bool :=
  c.isReady t.position && (!t.settled || t.missed)

/-- R79, R115: the mark an affected endpoint takes at the end of the window, reported to the Stream Table. -/
def State.markUnsettled (s : State) (t : Transfer) : State :=
  if s.chain.handedOver t then
    if s.chain.beyondIsolated t.position then s.setStale true t.position else s.setOutOfStep t.position
  else s

/-- R79: the marks of the end of a settle window, in ascending position order. -/
def State.markAllUnsettled (s : State) : State := s.switch.transfers.foldl State.markUnsettled s

/-- R79: the engine discards the batch and enters IDLE. -/
def SwitchEngine.settled (x : SwitchEngine) : SwitchEngine :=
  { x with phase := .idle, batch := none, transfers := [], queue := [], settle := 0 }

/-- R79: the window ends. -/
def State.settleEnd (s : State) : State :=
  let s1 := s.markAllUnsettled
  s1.setSwitch s1.switch.settled

/-! ### Reading a trail (R69 to R72, R78) -/

/-- What a trail says of one transfer. -/
inductive Verdict where
  | keep | sealed | resend
  deriving DecidableEq, Repr

/-- Whether a trail entry loses an endpoint's readiness (R71). -/
def lostReadiness (token : Token) (f : TrailFields) : Bool := !f.readyValid || f.token != token

/-- R69, R71: a SENT transfer by its seal's answer, a READY one by its endpoint's ready report. -/
def Transfer.verdict (a : Arrival) (token : Token) (t : Transfer) : Verdict :=
  match t.status with
  | .queued => .keep
  | .sent =>
    match a.okPayload with
    | some (b :: _) => if a.record.client = some .switch ∧ b = token then .sealed else .resend
    | _ => .resend
  | .ready =>
    match a.trail.valid t.position with
    | some f => if lostReadiness token f then .resend else .keep
    | none => .keep

/-- R69: the transfer after the trail; a resend starts again from line 0. -/
def Transfer.after (a : Arrival) (token : Token) (t : Transfer) : Transfer :=
  match t.verdict a token with
  | .keep => t
  | .sealed => { t with status := .ready }
  | .resend => { t with status := .queued, nextIndex := 0, resends := t.resends + 1 }

/-- R69: whether the trail calls for a resend of a transfer whose resends are spent. -/
def SwitchEngine.spent (a : Arrival) (x : SwitchEngine) : Bool :=
  x.transfers.any fun t => t.verdict a x.token == .resend && decide (Config.maxResends ≤ t.resends)

/-- R69 to R71: the engine in PREPARE after a trail that spends no transfer. -/
def SwitchEngine.readPrepare (a : Arrival) (x : SwitchEngine) : SwitchEngine :=
  { x with
    transfers := x.transfers.map (Transfer.after a x.token)
    queue := x.queue ++ (x.transfers.filter fun t => t.verdict a x.token == .resend).map Transfer.position
    progress := if x.transfers.any (fun t => t.verdict a x.token == .sealed) then 0 else x.progress + 1 }

/-- R72: PREPARE completes when every transfer record is READY. -/
def SwitchEngine.completed (x : SwitchEngine) : SwitchEngine :=
  match x.batch with
  | some b =>
    if x.transfers.all (fun t => t.status == .ready) then { x with phase := .countdown, countdown := b.lead } else x
  | none => x

/-- R80: the reason of an abandonment that arises in the reading of a trail. -/
def SwitchEngine.reason (a : Arrival) (x : SwitchEngine) : AbandonReason :=
  if x.transfers.any (fun t => a.losses.contains t.position) then .endpointLost
  else if x.spent a then .mapTransfer
  else .timeout

/-- R70: whether the progress count has reached the prepare timeout in force. -/
def SwitchEngine.timedOut (x : SwitchEngine) : Bool := decide (x.settings.prepareTimeout ≤ x.progress)

/-- R69 to R72: the reading of a trail in PREPARE. A PREPARE that began within this trail arrival reads the next one. -/
def State.readPrepare (a : Arrival) (s : State) : State :=
  if s.switch.token ≠ a.token then s
  else if s.switch.spent a || (s.switch.readPrepare a).timedOut then s.abandon (s.switch.reason a)
  else s.setSwitch (s.switch.readPrepare a).completed

/-- R71: the reading of a trail in COUNTDOWN. -/
def SwitchEngine.readCountdown (a : Arrival) (x : SwitchEngine) : SwitchEngine :=
  { x with transfers := x.transfers.map fun t =>
      if t.status = .ready ∧ t.verdict a x.token = .resend then { t with missed := true } else t }

/-- R78: the reading of a trail in SETTLE. -/
def SwitchEngine.readSettle (a : Arrival) (x : SwitchEngine) : SwitchEngine :=
  { x with
    transfers := x.transfers.map fun t =>
      match a.trail.valid t.position with
      | some f => { t with settled := f.epoch == x.epoch }
      | none => t
    settle := x.settle - 1 }

/-- What the Switch Engine takes of a trail arrival. -/
def State.readSwitch (a : Arrival) (s : State) : State :=
  match s.switch.phase with
  | .idle => s
  | .prepare => s.readPrepare a
  | .countdown => s.setSwitch (s.switch.readCountdown a)
  | .settle =>
    let s1 := s.setSwitch (s.switch.readSettle a)
    if s1.switch.settle = 0 then s1.settleEnd else s1

end Sys2Proof.Machine
end

