-- ==== Sys2Proof/Machine/Chain.lean ====
section
/-! DEFINITION. The Chain Manager (chapter 6): breaks and losses, quiet counts, entry into RESYNCING, the answers of the
chain client, and the return to waiting work after each event (R56, R116). -/

namespace Sys2Proof.Machine

/-! ### The end of the chain (R106, R112) -/

/-- R112: the position an EXTEND is pending for when the end of the chain is as it stands. -/
def ChainManager.extendTarget (c : ChainManager) : Option Nat :=
  if 1 ≤ c.endM ∧ c.endM ≤ 14 then some c.endM else none

/-- R112, R113: what the end of the chain in RUNNING makes pending: an EXTEND to it, and no probe when m is 15. -/
def ChainManager.atEnd (c : ChainManager) : ChainManager :=
  { c with extendPending := c.extendTarget, probePending := c.probePending && decide (c.endM < Config.maxPosition) }

/-- R106, R112: the chain state becomes RUNNING, the bring-up record being discarded. -/
def ChainManager.enterRunning (c : ChainManager) : ChainManager := { c with state := .running, bringUp := none : ChainManager }.atEnd

/-- R112, R113: the end of the chain has changed; only in RUNNING does that make anything pending. -/
def ChainManager.endChanged (c : ChainManager) : ChainManager :=
  match c.state with
  | .running => c.atEnd
  | .bringUp => c
  | .off => c

/-- R110: the break counters at rest. -/
def ChainManager.clearBreak (c : ChainManager) : ChainManager := { c with breakCount := 0, largestShort := 0 }

/-- R110: with m at 0 the break count stays 0; that the largest short reach is 0 with it is read from the rule (assumption
24). -/
def ChainManager.restBreak (c : ChainManager) : ChainManager := if c.endM = 0 then c.clearBreak else c

/-! ### Losses (R110, R111) -/

/-- R111, R125: an entry becomes LOST, its hop returned to its reset values. -/
def ChainEntry.lose (e : ChainEntry) : ChainEntry :=
  { e with state := .lost, quiet := 0, attempts := 0, hopScore := 0, hopState := .healthy, cleanRun := 0 }

/-- The positions above `r` in JOINING, RESYNCING or READY. -/
def ChainManager.enrolledAbove (c : ChainManager) (r : Nat) : List Nat :=
  positions.filter fun p => decide (r < p) && (c.entry p).enrolled

/-- One position becomes LOST. -/
def ChainManager.loseEntry (c : ChainManager) (p : Nat) : ChainManager := c.setEntry p (c.entry p).lose

/-- R111: a resync transfer to a lost position is discarded. -/
def ChainManager.dropResync (ps : List Nat) (c : ChainManager) : ChainManager :=
  match c.resync with
  | some r => if ps.contains r.position then { c with resync := none } else c
  | none => c

/-- R106, R110 to R112: positions become LOST; in BRINGUP that ends bring-up, and with none left the break count is 0. -/
def ChainManager.lose (ps : List Nat) (c : ChainManager) : ChainManager :=
  let c1 := ((ps.foldl ChainManager.loseEntry c).dropResync ps).restBreak
  match c1.state with
  | .bringUp => c1.enterRunning
  | .running => c1.endChanged
  | .off => c1

/-- R111: the reports of newly LOST positions to the Stream Table, the Switch Engine, the Event Fetch Unit and the Remote
Access Unit. The manual gives the reported blocks no order at the Router (R111, R145, R154); the order taken here, stream
notices, COMMIT_ABANDONED, REMOTE_FAILED, is the model's choice (assumption 34). -/
def State.reportLosses (ps : List Nat) (s : State) : State :=
  allPorts.foldl (State.loseRemote ps) (((s.recompute).abandonOnLoss ps).loseFetch ps)

/-- R111: positions become LOST; ENDPOINT_LOST is raised for each in ascending order, then the losses are reported. -/
def State.losePositions (ps : List Nat) (s : State) : State :=
  if ps.isEmpty then s
  else (ps.foldl (fun s p => s.raise (.endpointLost p)) (s.setChain (s.chain.lose ps))).reportLosses ps

/-! ### The break rule (R110) -/

/-- R110: the break count and the largest short reach after a trail of a reach, before the count is compared. -/
def ChainManager.countShort (reach : Nat) (c : ChainManager) : ChainManager :=
  if c.endM = 0 then c.clearBreak
  else if reach < c.endM then
    { c with breakCount := c.breakCount + 1
             largestShort := if c.breakCount = 0 then reach else max c.largestShort reach }
  else { c with breakCount := 0, largestShort := 0 }

/-- R110: whether the break count has reached 3. -/
def ChainManager.broken (c : ChainManager) : Bool := decide (Config.breakTrails ≤ c.breakCount)

/-- R110: a detected break: every enrolled position above the largest short reach becomes LOST. -/
def State.breakChain (s : State) : State :=
  (s.setChain s.chain.clearBreak).losePositions (s.chain.enrolledAbove s.chain.largestShort)

/-- The positions the break rule makes LOST at a trail of a reach (R110). -/
def ChainManager.breakLosses (reach : Nat) (c : ChainManager) : List Nat :=
  if (c.countShort reach).broken then (c.countShort reach).enrolledAbove (c.countShort reach).largestShort else []

/-! ### Leaving JOINING and entering RESYNCING (R108, R116, R117) -/

/-- Whether an entry carries a stale or out-of-step mark. -/
def ChainEntry.marked (e : ChainEntry) : Bool := e.stale || e.outOfStep

/-- R108: whether a JOINING entry stands at 16. -/
def ChainEntry.proven (e : ChainEntry) : Bool := e.state == .joining && e.quiet == Config.quietTarget

/-- R108: whether a JOINING entry leaves for READY. -/
def ChainEntry.readies (e : ChainEntry) : Bool := e.proven && !e.rejoined && !e.marked

/-- R116: whether an entry enters RESYNCING; `idle` is whether the Switch Engine is IDLE. -/
def ChainManager.resyncs (c : ChainManager) (idle : Bool) (p : Nat) : Bool :=
  idle && (((c.entry p).proven && ((c.entry p).rejoined || (c.entry p).marked))
    || ((c.entry p).state == .ready && (c.entry p).marked && !c.beyondIsolated p))

/-- The entry of a position after the exits of R108 and the entries of R116. -/
def ChainManager.movedEntry (c : ChainManager) (idle : Bool) (p : Nat) : ChainEntry :=
  if (c.entry p).readies then { c.entry p with state := .ready }
  else if c.resyncs idle p then { c.entry p with state := .resyncing, attempts := 0 }
  else c.entry p

/-- Some entries replaced, each by its image under the table as it stood. -/
def ChainManager.mapEntries (f : Nat → ChainEntry) (c : ChainManager) : ChainManager :=
  positions.foldl (fun c p => c.setEntry p (f p)) c

/-- Whether the Switch Engine is IDLE. -/
def State.idle (s : State) : Bool := s.switch.phase == .idle

/-- R108, R116: the entry of a position moves when it qualifies: ENDPOINT_READY when it becomes READY, and its own report to
the Stream Table (R15). That the event comes before the report is the model's choice (assumption 37). -/
def State.moveEntry (s : State) (p : Nat) : State :=
  if (s.entry p).readies then ((s.setEntry p (s.chain.movedEntry s.idle p)).raise (.endpointReady p)).recompute
  else if s.chain.resyncs s.idle p then (s.setEntry p (s.chain.movedEntry s.idle p)).recompute
  else s

/-- R108, R116, R123: every entry that qualifies moves in one event, in ascending position order. -/
def State.moveEntries (s : State) : State := positions.foldl State.moveEntry s

/-- R117: when no transfer is present and some entry is RESYNCING, a transfer for the lowest such position. -/
def ChainManager.ensureResync (c : ChainManager) : ChainManager :=
  match c.resync with
  | some _ => c
  | none =>
    match positions.find? fun p => (c.entry p).state == .resyncing with
    | some p => { c with resync := some { position := p, nextIndex := 0 } }
    | none => c

/-- R117 for the head. -/
def State.ensureResync (s : State) : State := s.setChain s.chain.ensureResync

/-- R56, R108, R116: what waits for the Switch Engine's return to IDLE, for the end of a resync or for a mark is taken,
in the order given by the outcome of R56's meeting. -/
def State.settleWork (m : Meet) (s : State) : State :=
  match m with
  | .resyncFirst => s.moveEntries.formIfDue.ensureResync
  | .batchFirst => s.formIfDue.moveEntries.ensureResync

/-! ### Reading the trail (R109) -/

/-- R109: last reach and last trail missing (R104). The trail handed over after an accepted restart in the same cycle is
read to no effect (R109), yet it is the last trail arrival these two items are defined by (R104, R120): that it writes them
is the model's choice (assumption 33). -/
def ChainManager.seeTrail (t : Trail) (c : ChainManager) : ChainManager :=
  { c with lastReach := t.reach, lastMissing := t.missing }

/-- R109 step 1: the break rule; what it sets free is taken at once. -/
def State.applyBreak (a : Arrival) (m : Meet) (s : State) : State :=
  let s1 := s.setChain (s.chain.countShort a.trail.reach)
  if s1.chain.broken then s1.breakChain.settleWork m else s1

/-- R108: the quiet count after a trail. -/
def quietAfter (f : Option TrailFields) (n : Nat) : Nat :=
  match f with
  | some x => if x.leadOk then min Config.quietTarget (n + 1) else 0
  | none => 0

/-- R109 step 2: the reported epoch and the quiet count of an entry after a trail. -/
def ChainEntry.readTrail (f : Option TrailFields) (e : ChainEntry) : ChainEntry :=
  { e with
    reported := match f with
      | some x => if e.enrolled then some x.epoch else e.reported
      | none => e.reported
    quiet := if e.state = .joining then quietAfter f e.quiet else e.quiet }

/-- R109 step 2: reported epochs, quiet counts, then the exits of R108. -/
def State.readEntries (a : Arrival) (s : State) : State :=
  (s.setChain (s.chain.mapEntries fun p => (s.entry p).readTrail (a.trail.valid p))).moveEntries

/-! ### Enrollment (R106, R114) -/

/-- R106, R114: an entry enters JOINING as new. -/
def ChainEntry.joinNew (i : Identity) (e : ChainEntry) : ChainEntry :=
  { e with state := .joining, identity := some i, rejoined := false, quiet := 0, reported := none }

/-- R114: a LOST entry rejoins; its record takes the answer's revision and limits. -/
def ChainEntry.rejoin (i : Identity) (e : ChainEntry) : ChainEntry :=
  { e with state := .joining, identity := some i, rejoined := true, quiet := 0 }

/-- R114: whether kind and serial equal the stored record. -/
def Identity.sameUnit (i : Identity) (stored : Option Identity) : Bool :=
  match stored with
  | some j => i.kind == j.kind && i.serial == j.serial
  | none => false

/-- R14: the streams touching a position take release mark REPLACED. -/
def State.markReplaced (p : Nat) (s : State) : State :=
  { s with streams := s.streams.map fun r => if r.replacedAt p then { r with mark := .replaced } else r }

/-- R106: bring-up moves on beyond a position just enrolled, or ends at position 15. -/
def ChainManager.bringUpNext (p : Nat) (c : ChainManager) : ChainManager :=
  if p < Config.maxPosition then { c with bringUp := some { position := p + 1, step := .wait, cycles := none, tries := 0 } }
  else c.enterRunning

/-- R106: position p is enrolled in bring-up. -/
def State.enrollInBringUp (p : Nat) (i : Identity) (s : State) : State :=
  ((s.setChain ((s.chain.setEntry p ((s.entry p).joinNew i)).bringUpNext p)).raise (.endpointJoined p)).recompute

/-- R114: a taken probe answer at an entry, with the events it raises. -/
def State.enrollByProbe (p : Nat) (i : Identity) (s : State) : State :=
  if (s.entry p).state = .lost then
    if i.sameUnit (s.entry p).identity then
      ((s.setChain (s.chain.setEntry p ((s.entry p).rejoin i)).endChanged).raise (.endpointJoined p)).recompute
    else
      ((((s.setChain (s.chain.setEntry p ((s.entry p).joinNew i)).endChanged).markReplaced p).raise
        (.endpointReplaced p)).raise (.endpointJoined p)).recompute
  else ((s.setChain (s.chain.setEntry p ((s.entry p).joinNew i)).endChanged).raise (.endpointJoined p)).recompute

/-- The identity a valid OK answer to a SEEK carries (R106, R114). -/
def identityAnswered (ans : Option Answer) : Option Identity :=
  match ans with
  | some a => if a.result = .ok then identityOf a.payload else none
  | none => none

/-- R106: the answer to a bring-up SEEK, read while that SEEK's position is still being sought. -/
def State.answerSeek (p : Nat) (ans : Option Answer) (s : State) : State :=
  match s.chain.state, s.chain.bringUp with
  | .bringUp, some b =>
    if b.step = .seek ∧ b.position = p then
      match identityAnswered ans with
      | some i => s.enrollInBringUp p i
      | none => if Config.seekTries ≤ b.tries then s.setChain s.chain.enterRunning else s
    else s
  | _, _ => s

/-- R114: the answer to a probe SEEK. -/
def State.answerProbe (q : Nat) (ans : Option Answer) (s : State) : State :=
  if s.chain.state = .running ∧ q = s.chain.endM + 1 then
    match identityAnswered ans with
    | some i => s.enrollByProbe q i
    | none => s
  else s

/-- Whether a valid answer carries result OK. -/
def answeredOk (ans : Option Answer) : Bool :=
  match ans with
  | some a => a.result == .ok
  | none => false

/-- R112: the answer to an EXTEND of extend pending. -/
def State.answerExtend (p : Nat) (ans : Option Answer) (s : State) : State :=
  if answeredOk ans = true ∧ s.chain.extendPending = some p then s.setChain { s.chain with extendPending := none } else s

/-! ### The resync seal (R118) -/

/-- R118: a resynced entry. -/
def ChainEntry.resynced (e : ChainEntry) : ChainEntry :=
  { e with state := .ready, rejoined := false, stale := false, outOfStep := false, attempts := 0 }

/-- R118: whether a seal's answer is OK with the token in force. -/
def sealAnswered (token : Token) (ans : Option Answer) : Bool :=
  match ans with
  | some a => a.result == .ok && a.payload.head? == some token
  | none => false

/-- R118: a resync seal answered OK. -/
def State.resyncDone (p : Nat) (s : State) : State :=
  ((s.setChain { s.chain.setEntry p (s.entry p).resynced with resync := none }).raise (.endpointReady p)).recompute

/-- R118: a failed attempt. -/
def State.resyncFailed (p : Nat) (s : State) : State :=
  if (s.entry p).attempts < Config.resyncAttempts then
    s.setChain { s.chain with resync := some { position := p, nextIndex := 0 } }
  else s.losePositions (s.chain.enrolledAbove (p - 1))

/-- R118: the answer to a resync seal, read while its transfer is still present. -/
def State.answerResync (p : Nat) (ans : Option Answer) (s : State) : State :=
  match s.chain.resync with
  | some r =>
    if r.position = p then
      if sealAnswered s.switch.token ans then s.resyncDone p else s.resyncFailed p
    else s
  | none => s

/-- R109 step 3: the answer of the cycle under the rule of the item sent (R119). -/
def State.answerChain (a : Arrival) (s : State) : State :=
  match a.record.client with
  | some (.chain .bringUpSeek) => s.answerSeek a.record.target a.answer
  | some (.chain .extend) => s.answerExtend a.record.target a.answer
  | some (.chain .resyncSeal) => s.answerResync a.record.target a.answer
  | some (.chain .probe) => s.answerProbe a.record.target a.answer
  | some (.chain .bringUpExtend) => s
  | some (.chain .resyncLine) => s
  | some .switch => s
  | some .fetch => s
  | some (.host _) => s
  | none => s

/-- What the Chain Manager takes of a trail arrival (R109). The events of class 0 go to the Router step by step of R109,
ascending within a step; that R123's one event is a step, not the whole reading, is the model's choice (assumption 35). -/
def State.readChain (a : Arrival) (m : Meet) (s : State) : State :=
  ((((s.setChain (s.chain.seeTrail a.trail)).applyBreak a m).readEntries a).answerChain a)

end Sys2Proof.Machine
end

