-- ==== Sys2Proof/Machine/Layout.lean ====
section
/-! DEFINITION. The byte layouts of what the head sends (chapter 11): response frames, queue entries, lead blocks and
control payloads. -/

namespace Sys2Proof.Machine

/-! ### Codes (Table 11-2) -/

/-- Response status codes, in the order of Table 10-5. -/
def Status.code : Status → Byte
  | .ok => 0x00#8
  | .accepted => 0x01#8
  | .frameError => 0x02#8
  | .badRequest => 0x03#8
  | .badValue => 0x04#8
  | .notAttached => 0x05#8
  | .alreadyAttached => 0x06#8
  | .notOwner => 0x07#8
  | .notFound => 0x08#8
  | .notReady => 0x09#8
  | .noHandle => 0x0A#8
  | .draftFull => 0x0B#8
  | .draftBusy => 0x0C#8
  | .duplicate => 0x0D#8
  | .queueFull => 0x0E#8
  | .writeProtected => 0x0F#8
  | .targetUnreachable => 0x10#8
  | .inUse => 0x11#8
  | .switchBusy => 0x12#8

/-- Stream state codes. -/
def StreamState.code : StreamState → Byte
  | .free => 0x00#8
  | .staged => 0x01#8
  | .switchingIn => 0x02#8
  | .live => 0x03#8
  | .suspended => 0x04#8
  | .switchingOut => 0x05#8

/-- Close cause codes. -/
def CloseCause.code : CloseCause → Byte
  | .owner => 0x01#8
  | .released => 0x02#8
  | .replaced => 0x03#8
  | .restart => 0x04#8

/-- Release mark codes. -/
def ReleaseMark.code : ReleaseMark → Byte
  | .none => 0x00#8
  | .released => 0x02#8
  | .replaced => 0x03#8

/-- Draft state codes. -/
def DraftState.code : DraftState → Byte
  | .empty => 0x00#8
  | .opened => 0x01#8
  | .queued => 0x02#8
  | .active => 0x03#8

/-- Commit flag codes. -/
def CommitFlags.code : CommitFlags → Byte
  | .none => 0x00#8
  | .repack => 0x01#8

/-- Setting codes. -/
def Setting.code : Setting → Byte
  | .switchLead => 0x01#8
  | .prepareTimeout => 0x02#8
  | .retryLimit => 0x03#8
  | .probeInterval => 0x04#8
  | .eventFetch => 0x05#8

/-- Reason codes of Lane Placement. -/
def FailReason.code : FailReason → Byte
  | .notReady => 0x01#8
  | .unreachable => 0x02#8
  | .noLanes => 0x03#8
  | .fragmented => 0x04#8
  | .sourceLimit => 0x05#8
  | .sinkLimit => 0x06#8
  | .mapFull => 0x07#8
  | .streamGone => 0x08#8

/-- Reason codes of an abandonment. -/
def AbandonReason.code : AbandonReason → Byte
  | .mapTransfer => 0x11#8
  | .timeout => 0x12#8
  | .endpointLost => 0x13#8

/-- Reason codes of REMOTE_FAILED. -/
def RemoteReason.code : RemoteReason → Byte
  | .targetUnreachable => 0x21#8
  | .noAnswer => 0x22#8

/-- Switch phase codes. -/
def Phase.code : Phase → Byte
  | .idle => 0x00#8
  | .prepare => 0x01#8
  | .countdown => 0x02#8
  | .settle => 0x03#8

/-- Chain state codes. -/
def ChainState.code : ChainState → Byte
  | .off => 0x00#8
  | .bringUp => 0x01#8
  | .running => 0x02#8

/-- Entry state codes. -/
def EntryState.code : EntryState → Byte
  | .absent => 0x00#8
  | .joining => 0x01#8
  | .ready => 0x02#8
  | .lost => 0x03#8
  | .resyncing => 0x04#8

/-- Hop state codes. -/
def HopState.code : HopState → Byte
  | .healthy => 0x00#8
  | .degraded => 0x01#8
  | .isolated => 0x02#8

/-- Port state codes. -/
def PortState.code : PortState → Byte
  | .detached => 0x00#8
  | .attached => 0x01#8

/-- End reason codes. -/
def EndReason.code : EndReason → Byte
  | .none => 0x00#8
  | .detach => 0x01#8
  | .leaseExpired => 0x02#8

/-- Pass codes. -/
def Pass.code : Pass → Byte
  | .down => 0x00#8
  | .up => 0x01#8

/-- Role codes. -/
def Role.code : Role → Byte
  | .source => 0x00#8
  | .sink => 0x01#8

/-- A cause set byte (R179). -/
def Causes.code (c : Causes) : Byte :=
  byteOf ((if c.lost then 1 else 0) + (if c.isolated then 2 else 0) + (if c.resync then 4 else 0))

/-- A one-byte field whose absent value is FFh (R179). -/
def orFF (v : Option Nat) : Byte :=
  match v with
  | some n => byteOf n
  | none => 0xFF#8

/-- A one-byte field whose absent value is 00h (R179). -/
def or00 (v : Option Nat) : Byte :=
  match v with
  | some n => byteOf n
  | none => 0x00#8

/-! ### Queue entries (Tables 11-7 and 11-7a) -/

/-- The code of a notice (Table 9-3). -/
def Notice.code : Notice → Byte
  | .commitDone _ _ => 0x01#8
  | .commitRejected _ _ => 0x02#8
  | .commitAbandoned _ => 0x03#8
  | .streamSuspended _ _ => 0x04#8
  | .streamResumed _ => 0x05#8
  | .streamMoved _ _ _ => 0x06#8
  | .streamClosed _ _ => 0x07#8
  | .remoteDone _ _ => 0x08#8
  | .remoteFailed _ _ => 0x09#8
  | .remotePartial _ _ => 0x0A#8
  | .settingsChanged _ _ => 0x0B#8

/-- The code of an event (Table 9-4, R158). -/
def Event.code : Event → Byte
  | .endpointJoined _ => 0x81#8
  | .endpointReady _ => 0x82#8
  | .endpointLost _ => 0x83#8
  | .endpointReplaced _ => 0x84#8
  | .chainRestarted _ => 0x85#8
  | .hopDegraded _ => 0x86#8
  | .hopIsolated _ => 0x87#8
  | .hopRecovered _ => 0x88#8
  | .epochChanged _ => 0x89#8
  | .endpoint _ code _ => byteOf code

/-- The three arguments of an entry, each present or absent (Table 11-7a). -/
structure Arguments where
  first : Option (BitVec 16)
  second : Option (BitVec 16)
  third : Option (List Byte)
  deriving DecidableEq, Repr

/-- A 16-bit argument. -/
def word (n : Nat) : BitVec 16 := BitVec.ofNat 16 n

/-- An argument that is a byte code. -/
def wordOf (b : Byte) : BitVec 16 := b.setWidth 16

/-- The arguments of a notice (Table 11-7a). -/
def Notice.arguments : Notice → Arguments
  | .commitDone e n => ⟨some e, some (word n), none⟩
  | .commitRejected i r => ⟨some (word i), some (wordOf r.code), none⟩
  | .commitAbandoned r => ⟨some (wordOf r.code), none, none⟩
  | .streamSuspended h c => ⟨some (word h.val), some (wordOf c.code), none⟩
  | .streamResumed h => ⟨some (word h.val), none, none⟩
  | .streamMoved h d u => ⟨some (word h.val), d.map word, u.map fun n => [byteOf n]⟩
  | .streamClosed h c => ⟨some (word h.val), some (wordOf c.code), none⟩
  | .remoteDone t d => ⟨some (wordOf t), none, d⟩
  | .remoteFailed t r => ⟨some (wordOf t), some (wordOf r.code), none⟩
  | .remotePartial t n => ⟨some (wordOf t), some (word n), none⟩
  | .settingsChanged k v => ⟨some (wordOf k.code), some (word v), none⟩

/-- The arguments of an event (Table 11-7a). -/
def Event.arguments : Event → Arguments
  | .endpointJoined p | .endpointReady p | .endpointLost p | .endpointReplaced p => ⟨some (word p), none, none⟩
  | .chainRestarted e => ⟨some e, none, none⟩
  | .hopDegraded h | .hopIsolated h | .hopRecovered h => ⟨some (word h), none, none⟩
  | .epochChanged e => ⟨some e, none, none⟩
  | .endpoint _ _ d => ⟨some d, none, none⟩

/-- The presence byte of Table 11-7. -/
def Arguments.presence (a : Arguments) : Byte :=
  byteOf ((if a.first.isSome then 1 else 0) + (if a.second.isSome then 2 else 0) + (if a.third.isSome then 4 else 0))

/-- Offsets 8 to 17 of a queue entry (Table 11-7). -/
def Arguments.bytes (a : Arguments) : List Byte :=
  a.presence :: byteOf (a.third.getD []).length :: bytes16 (a.first.getD 0#16) ++ bytes16 (a.second.getD 0#16)
    ++ padTo 4 (a.third.getD [])

/-- The 18 bytes of a queue entry (Table 11-7). -/
def QueueEntry.bytes (e : QueueEntry) : List Byte :=
  match e.item with
  | .notice n => 0x00#8 :: n.code :: 0x00#8 :: 0x00#8 :: bytes32 e.stamp ++ n.arguments.bytes
  | .event v => 0x01#8 :: v.code :: byteOf v.position :: byteOf v.class :: bytes32 e.stamp ++ v.arguments.bytes

/-! ### Response bodies (Table 11-5) -/

/-- Exactly `k` slots of `n` bytes, the first ones from a list, the rest 00h (R179). -/
def slots (k n : Nat) (l : List (List Byte)) : List Byte := padTo (k * n) (l.map (padTo n)).flatten

/-- A draft entry slot of DRAFT_VIEW, 12 bytes. -/
def entrySlot (x : Nat × DraftEntry) : List Byte :=
  match x.2 with
  | .opening h src sinks lanes label =>
    byteOf x.1 :: 0x01#8 :: byteOf h.val :: byteOf src :: byteOf sinks.length :: padTo 4 (sinks.map byteOf)
      ++ byteOf lanes :: bytes16 label
  | .closing h => padTo 12 [byteOf x.1, 0x02#8, byteOf h.val]
  | .resizing h n => padTo 9 [byteOf x.1, 0x03#8, byteOf h.val] ++ [byteOf n, 0x00#8, 0x00#8]
  | .setting k v => padTo 12 [byteOf x.1, 0x04#8, k.code, byteOf v]

/-- An unused draft entry slot: index FFh. -/
def unusedSlot : List Byte := padTo 12 [0xFF#8]

/-- The two entry slots of DRAFT_VIEW. -/
def viewSlots (l : List (Nat × DraftEntry)) : List Byte :=
  match l with
  | [] => unusedSlot ++ unusedSlot
  | [a] => entrySlot a ++ unusedSlot
  | a :: b :: _ => entrySlot a ++ entrySlot b

/-- The pending change and its argument, offsets 16 and 17 of Table 11-6. -/
def PendingChange.bytes : PendingChange → List Byte
  | .none => [0x00#8, 0x00#8]
  | .resize n => [0x01#8, byteOf n]
  | .close c => [0x02#8, c.code]

/-- The stream info record (Table 11-6). -/
def streamRecord (h : Handle) (r : Stream) : List Byte :=
  if r.state = .free then padTo 22 [byteOf h.val]
  else
    byteOf h.val :: r.state.code :: orFF (r.owner.map fun o => o.1.val) :: or00 (r.owner.map Prod.snd) :: yesNo r.orphan
      :: bytes16 r.label ++ byteOf r.source :: byteOf r.sinks.length :: padTo 4 (r.sinks.map byteOf)
      ++ byteOf r.lanes :: orFF r.down :: orFF r.up :: r.change.bytes ++ r.causes.code :: r.mark.code
      :: bytes16 r.placedEpoch

/-- An item of LIST_STREAMS, 4 bytes. -/
def ListItem.bytes (i : ListItem) : List Byte :=
  [byteOf i.handle.val, i.state.code, orFF (i.ownerPort.map Fin.val), yesNo i.orphan]

/-- The CHAIN_INFO summary (Table 11-8). -/
def ChainSummary.bytes (b : ChainSummary) : List Byte :=
  padTo 23 [0x00#8, b.state.code, byteOf b.endM, or00 b.bringUp, byteOf b.lastReach, yesNo b.lastMissing,
    byteOf b.breakCount, or00 b.resync]

/-- Offsets 2 to 10 of a CHAIN_INFO entry: the identity record (Table 11-8). -/
def identityBytes : Option Identity → List Byte
  | some i =>
    0x01#8 :: i.kind :: i.revision :: bytes32 i.serial ++ [byteOf i.sourceLimit, byteOf i.sinkLimit]
  | none => List.replicate 9 0x00#8

/-- Offsets 16 to 18 of a CHAIN_INFO entry: the reported epoch. -/
def reportedBytes : Option Epoch → List Byte
  | some e => 0x01#8 :: bytes16 e
  | none => [0x00#8, 0x00#8, 0x00#8]

/-- The CHAIN_INFO entry of a position (Table 11-8). -/
def entryBytes (p : Nat) (e : ChainEntry) : List Byte :=
  byteOf p :: e.state.code :: identityBytes e.identity ++ yesNo e.rejoined :: byteOf e.quiet :: yesNo e.stale
    :: yesNo e.outOfStep :: byteOf e.attempts :: reportedBytes e.reported ++ byteOf e.hopScore :: e.hopState.code
    :: bytes16 (word e.cleanRun)

/-- The body of PORT_STATUS, 13 bytes. -/
def PortStatusBody.bytes (b : PortStatusBody) : List Byte :=
  b.state.code :: byteOf b.session :: byteOf b.lease :: bytes24 (b.leaseRemaining.getD 0) ++ b.endReason.code
    :: byteOf b.queueLength :: byteOf b.eventCount :: byteOf b.lost :: yesNo b.noticeLoss :: byteOf b.remoteHeld
    :: [b.draft.code]

/-- The body of DRAFT_VIEW, 29 bytes. -/
def DraftViewBody.bytes (b : DraftViewBody) : List Byte :=
  b.state.code :: byteOf b.count
    :: (match b.flags with
        | some f => f.code
        | none => 0xFF#8)
    :: or00 b.place :: viewSlots b.entries ++ [orFF b.next]

/-- The body of PLAN_INFO, 10 bytes. -/
def PlanInfoBody.bytes (b : PlanInfoBody) : List Byte :=
  bytes16 b.epoch ++ [b.phase.code, b.token, byteOf b.countdown, byteOf b.downFree, byteOf b.upFree,
    byteOf b.queueLength, orFF b.affected, orFF b.ready]

/-- The bytes of a response body (Table 11-5). -/
def Body.bytes : Body → List Byte
  | .empty => []
  | .attach session lease => [byteOf session, byteOf lease]
  | .portStatus b => b.bytes
  | .opened i h => [byteOf i, byteOf h.val]
  | .index i => [byteOf i]
  | .draftView b => b.bytes
  | .stream h r => streamRecord h r
  | .streams items next => byteOf items.length :: orFF (next.map Fin.val) :: slots 8 4 (items.map ListItem.bytes)
  | .plan b => b.bytes
  | .summary b => b.bytes
  | .entry p e => entryBytes p e
  | .queue es remaining lost noticeLoss =>
    byteOf es.length :: byteOf remaining :: byteOf lost :: yesNo noticeLoss :: slots 4 18 (es.map QueueEntry.bytes)

/-- A frame that ends in the overrun field and the CRC-8 (Table 11-3). -/
def closeFrame (head : List Byte) (overrun : Bool) : List Byte :=
  let l := head ++ [yesNo overrun]
  l ++ [hostCrc l]

/-- The bytes of a response frame (Table 11-3). -/
def Response.bytes (r : Response) (overrun : Bool) : List Byte := closeFrame (r.status.code :: r.body.bytes) overrun

/-- The empty frame (R180). -/
def emptyFrame : List Byte := closeFrame [Config.emptyStatus] false

/-! ### The lead block (Table 11-9) and its payloads (Table 11-10) -/

/-- The payload of a MAP_LINE. -/
def linePayload (index : Nat) (l : MapLine) (token : Token) : List Byte :=
  padTo 8 [byteOf index, byteOf l.handle.val, l.pass.code, byteOf l.first, byteOf l.lanes, l.role.code, token]

/-- The payload of a MAP_SEAL; `immediate` is its mode. -/
def sealPayload (count : Nat) (token : Token) (immediate : Bool) (e : Epoch) : List Byte :=
  padTo 8 (byteOf count :: token :: yesNo immediate :: bytes16 e)

/-- Offsets 0 to 15 of a lead block. -/
def LeadBlock.fields (b : LeadBlock) : List Byte :=
  bytes16 b.cycle ++ bytes16 b.epoch ++ [byteOf b.countdown, b.token, byteOf b.msg.target, b.msg.kind.code]
    ++ padTo 8 b.msg.payload

/-- The 18 bytes of a lead block (Table 11-9, R181). -/
def LeadBlock.bytes (b : LeadBlock) : List Byte := b.fields ++ bytes16 (blockCheck b.fields)

end Sys2Proof.Machine
end

