-- ==== Sys2Proof/Machine/Ports.lean ====
section
/-! DEFINITION. The Port Interface (chapter 10): the steps a request frame takes, the response slot, sessions and leases. -/

namespace Sys2Proof.Machine

/-! ### Responses (R173, R174, R176) -/

/-- A response with an empty body. -/
def reply (st : Status) : Response := { status := st, body := .empty }

/-- Whether a status renews the lease (R171). -/
def Status.accepts : Status → Bool
  | .ok => true
  | .accepted => true
  | _ => false

/-- R169, R171: the lease count at its full length, absent for lease 0. -/
def fullLease (lease : Nat) : Option Nat := if lease = 0 then none else some (lease * Config.leaseUnit)

/-- R171: the renewal of a lease by a response status. -/
def PortContext.renewed (st : Status) (c : PortContext) : PortContext :=
  if st.accepts = true ∧ c.state = .attached ∧ 1 ≤ c.lease then { c with leaseCount := fullLease c.lease } else c

/-- R174, R176: a response is placed in the slot, and an accepted one renews the lease. -/
def PortContext.respond (r : Response) (c : PortContext) : PortContext := { c.renewed r.status with slot := some r }

/-- R174, R176: the response of a request, placed in the port's slot. -/
def State.respond (p : Port) (r : Response) (s : State) : State := s.setPort p ((s.port p).respond r)

/-- R173 steps 2 and 3: a frame that reaches no owner. Step 1 comes first: a full slot discards it. -/
def State.refuse (p : Port) (st : Status) (s : State) : State :=
  match (s.port p).slot with
  | some _ => s.setPort p (s.port p).overran
  | none => s.respond p (reply st)

/-- R173 steps 4 to 6: what the Port Interface or the owner makes of a request; `open?` is whether the request is taken
while DETACHED. -/
def State.takeRequest {α : Type} (open? : Bool) (p : Port) (b : Sized α) (owner : α → State → State × Response) (s : State) :
    State × Response :=
  if s.attached p = false ∧ open? = false then (s, reply .notAttached)
  else
    match b with
    | .wrongSize _ => (s, reply .badValue)
    | .sized a => owner a s

/-- R173, R176: a request frame with a known code. `after` is what an accepted request sets off after its response. -/
def State.requestThen {α : Type} (open? : Bool) (p : Port) (b : Sized α) (owner : α → State → State × Response)
    (after : State → State) (s : State) : State :=
  match (s.port p).slot with
  | some _ => s.setPort p (s.port p).overran
  | none =>
    let x := s.takeRequest open? p b owner
    if x.2.status.accepts then after (x.1.respond p x.2) else x.1.respond p x.2

/-- R173, R176: a request frame that sets nothing off. -/
def State.request {α : Type} (open? : Bool) (p : Port) (b : Sized α) (owner : α → State → State × Response) (s : State) :
    State := s.requestThen open? p b owner id

/-! ### Reading the slot (R174, R180) -/

/-- R174: a port after a read transaction of `clocks` bytes. -/
def PortContext.readOut (clocks : Nat) (c : PortContext) : PortContext :=
  match c.slot with
  | some r =>
    let frame := r.bytes c.overrun
    let c' := { c with dataOut := frame.take clocks }
    if frame.length ≤ clocks then c'.taken else c'
  | none => { c with dataOut := emptyFrame.take clocks }

/-! ### Session end (R13, R54, R147, R166, R167) -/

/-- R167: the context of a port at its session end. -/
def PortContext.ended (why : EndReason) (c : PortContext) : PortContext :=
  { c with state := .detached, leaseCount := none, endReason := why }

/-- R54: a port's commit entry leaves the commit queue. -/
def State.dropCommit (p : Port) (s : State) : State := s.setCommits (s.commits.filter fun c => c.port != p)

/-- R54: the draft of a port at its session end. -/
def State.settleDraft (p : Port) (s : State) : State :=
  match (s.draft p).state with
  | .empty => s
  | .opened => s.discardDraft p
  | .queued => (s.dropCommit p).discardDraft p
  | .active => s.setDraft p { s.draft p with ended := true }

/-- R13: the non-FREE streams of an ended session become orphans. -/
def State.orphanStreams (p : Port) (session : Nat) (s : State) : State :=
  { s with streams := s.streams.map fun r => if r.state ≠ .free ∧ r.belongsTo p session = true then r.orphaned else r }

/-- R167, Table 10-2: the end of a port's session. -/
def State.endSession (p : Port) (why : EndReason) (s : State) : State :=
  let s1 := s.setPort p ((s.port p).ended why)
  let s2 := (s1.settleDraft p).orphanStreams p (s.port p).session
  (s2.endRemote p).setRouter p RouterPort.reset

/-- R172: the lease of a port expires; the batch its release marks call for forms after the session end (R167). -/
def State.expireLease (p : Port) (s : State) : State := (s.endSession p .leaseExpired).formIfDue

/-- R171: one port's lease at a cycle start. -/
def State.tickLease (p : Port) (s : State) : State :=
  match (s.port p).state, (s.port p).leaseCount with
  | .attached, some n => if n ≤ 1 then s.expireLease p else s.setPort p { s.port p with leaseCount := some (n - 1) }
  | _, _ => s

/-! ### ATTACH, DETACH, PORT_STATUS (R169, R170, R178) -/

/-- R169: the next session number; 255 wraps to 1. -/
def nextSession (n : Nat) : Nat := if 255 ≤ n then 1 else n + 1

/-- R169: the context of a port after an accepted ATTACH. -/
def PortContext.attach (lease : Nat) (c : PortContext) : PortContext :=
  { c with state := .attached, session := nextSession c.session, lease := lease, leaseCount := fullLease lease }

/-- R169. -/
def State.takeAttach (p : Port) (lease : Byte) (s : State) : State × Response :=
  if s.attached p then (s, reply .alreadyAttached)
  else
    (s.setPort p ((s.port p).attach lease.toNat),
     { status := .ok, body := .attach (nextSession (s.port p).session) lease.toNat })

/-- R170. -/
def State.takeDetach (p : Port) (_ : Unit) (s : State) : State × Response := (s.endSession p .detach, reply .ok)

/-- The draft state a host is told: ACTIVE while ended is yes (R50, R178). -/
def Draft.reported (d : Draft) : DraftState := if d.ended then .active else d.state

/-- R178: the body of PORT_STATUS; its lease remaining is the count after the request's renewal. -/
def State.portStatusBody (s : State) (p : Port) : PortStatusBody :=
  { state := (s.port p).state, session := (s.port p).session, lease := (s.port p).lease
    leaseRemaining := ((s.port p).renewed .ok).leaseCount, endReason := (s.port p).endReason
    queueLength := (s.routerPort p).queue.length, eventCount := eventCount (s.routerPort p).queue
    lost := (s.routerPort p).lost, noticeLoss := (s.routerPort p).noticeLoss, remoteHeld := s.remoteHeld p
    draft := (s.draft p).reported }

/-- R178. -/
def State.takePortStatus (p : Port) (_ : Unit) (s : State) : State × Response :=
  (s, { status := .ok, body := .portStatus (s.portStatusBody p) })

end Sys2Proof.Machine
end

