-- ==== Sys2Proof/Machine/Restart.lean ====
section
/-! DEFINITION. Chain restart (R18, R55, R64, R121, R122, R148, R152). -/

namespace Sys2Proof.Machine

/-- R121 check 2: whether some non-FREE stream does not belong to the requesting session. -/
def State.inUse (s : State) (p : Port) : Bool :=
  allHandles.any fun h => (s.stream h).state != .free && !s.owns p (s.stream h)

/-- R18: the notice of a stream of the requester at an accepted restart. -/
def Stream.restartNotice (h : Handle) (r : Stream) : Option Notice :=
  if r.state = .live ∨ r.state = .suspended then some (.streamClosed h .restart) else none

/-- R18: one stream of the requester at an accepted restart. -/
def State.restartStream (p : Port) (s : State) (h : Handle) : State :=
  if (s.stream h).state ≠ .free ∧ s.owns p (s.stream h) = true then
    (s.freeStream h).notifyOwner? (s.stream h) ((s.stream h).restartNotice h)
  else s

/-- R64: the Switch Engine at an accepted restart. -/
def SwitchEngine.restarted (x : SwitchEngine) : SwitchEngine :=
  { x with plan := [], epoch := x.epoch + 1, token := x.token + 1 }

/-- R103, R104, R105: the Chain Manager at an accepted restart, in BRINGUP with the wait beginning at the acceptance. -/
def ChainManager.restarted : ChainManager := { ChainManager.reset with state := .bringUp }

/-- R105: the chain port is enabled at the entry into BRINGUP. -/
def State.enablePort (s : State) : State := s.setCycle { s.cycle with portEnabled := true }

/-- R122: an accepted restart, its results in the order of R122. -/
def State.restartChain (p : Port) (s : State) : State :=
  let s1 := (allHandles.foldl (State.restartStream p) s).setDraft p Draft.empty
  let s2 := ((s1.setSwitch s1.switch.restarted).setChain ChainManager.restarted).enablePort
  let s3 := s2.restartRemote
  (s3.setFetch { s3.fetch with wanted := [] }).raise (.chainRestarted s3.switch.epoch)

/-- R121: CHAIN_RESTART. -/
def State.takeChainRestart (p : Port) (_ : Unit) (s : State) : State × Response :=
  if s.switch.phase ≠ .idle ∨ s.commits ≠ [] then (s, reply .switchBusy)
  else if s.inUse p then (s, reply .inUse)
  else (s.restartChain p, reply .ok)

end Sys2Proof.Machine
end

