-- ==== Sys2Proof/Machine/Cycle.lean ====
section
/-! DEFINITION. The Cycle Engine and the Control Slot Arbiter (chapters 5 and 8): the cycle start, the grant and the
message, the media gate, the trail arrival. -/

namespace Sys2Proof.Machine

/-! ### Orders -/

/-- A list with every element kept at its first place only. -/
def firsts {α : Type} [DecidableEq α] : List α → List α
  | [] => []
  | a :: l => a :: (firsts l).filter fun b => decide (b ≠ a)

/-- The order a command names: its elements at their first places, then the elements of `all` it leaves out. -/
def complete {α : Type} [DecidableEq α] (all order : List α) : List α :=
  firsts order ++ all.filter fun a => decide (a ∉ order)

/-! ### The chain client in BRINGUP (R105, R107) -/

/-- The bring-up message due at a cycle start. -/
inductive BringUpDue where
  | nothing | extend | seek
  deriving DecidableEq, Repr

/-- R105: what is due at the next cycle start: the EXTEND that begins a wait, the first SEEK at the 32nd cycle start of
the wait, later ones 8 cycle starts apart. -/
def BringUp.due (b : BringUp) : BringUpDue :=
  match b.cycles with
  | none => .extend
  | some n =>
    match b.step with
    | .wait => if n + 1 = Config.bringUpWait then .seek else .nothing
    | .seek =>
      if b.tries < Config.seekTries ∧ n + 1 = Config.bringUpWait + Config.seekGap * b.tries then .seek else .nothing

/-- R105: the bring-up record after the next cycle start. -/
def BringUp.tick (b : BringUp) : BringUp :=
  match b.due, b.cycles with
  | .seek, some n => { b with step := .seek, tries := b.tries + 1, cycles := some (n + 1) }
  | _, some n => { b with cycles := some (n + 1) }
  | _, none => { b with cycles := some 0 }

/-- An empty payload (Table 11-10). -/
def noPayload : List Byte := List.replicate 8 0#8

/-- A message of a kind without a payload. -/
def bareMessage (target : Nat) (k : ControlKind) : ControlMsg := { target := target, kind := k, payload := noPayload }

/-! ### Clients with work, and what they send (R68, R113, R117, R119) -/

/-- R68: the switch client has work. -/
def SwitchEngine.hasWork (x : SwitchEngine) : Bool := x.phase == .prepare && !x.queue.isEmpty

/-- R68: the transfers after the message for a position; a seal's transfer is SENT. -/
def SwitchEngine.setTransfer (p : Nat) (f : Transfer → Transfer) (x : SwitchEngine) : SwitchEngine :=
  { x with transfers := x.transfers.map fun t => if t.position = p then f t else t }

/-- R68: the granted switch client sends the next line, or the seal, of the transfer at the head of its queue. -/
def SwitchEngine.send (x : SwitchEngine) : SwitchEngine × ControlMsg :=
  match x.queue with
  | [] => (x, ControlMsg.idle)
  | p :: rest =>
    match x.transfers.find? fun t => t.position == p with
    | none => ({ x with queue := rest }, ControlMsg.idle)
    | some t =>
      match t.map[t.nextIndex]? with
      | some l =>
        (x.setTransfer p fun t => { t with nextIndex := t.nextIndex + 1 },
         { target := p, kind := .mapLine, payload := linePayload t.nextIndex l x.token })
      | none =>
        ({ x.setTransfer p fun t => { t with status := .sent } with queue := rest },
         { target := p, kind := .mapSeal, payload := sealPayload t.map.length x.token false (x.epoch + 1) })

/-- R119: the item the chain client sends next in RUNNING. -/
def State.chainItem (s : State) : Option ChainItem :=
  match s.chain.extendPending with
  | some _ => some .extend
  | none =>
    match s.chain.resync with
    | some r => if r.nextIndex < (mapOf s.switch.plan r.position).length then some .resyncLine else some .resyncSeal
    | none => if s.chain.probePending = true ∧ s.chain.endM < Config.maxPosition then some .probe else none

/-- R117: the first message of an attempt counts the attempt. -/
def ChainManager.countAttempt (r : ResyncTransfer) (c : ChainManager) : ChainManager :=
  if r.nextIndex = 0 then c.setEntry r.position { c.entry r.position with attempts := (c.entry r.position).attempts + 1 }
  else c

/-- R117: the message of the resync transfer. -/
def State.sendResync (r : ResyncTransfer) (s : State) : State × ControlMsg :=
  let c := s.chain.countAttempt r
  match (mapOf s.switch.plan r.position)[r.nextIndex]? with
  | some l =>
    (s.setChain { c with resync := some { r with nextIndex := r.nextIndex + 1 } },
     { target := r.position, kind := .mapLine, payload := linePayload r.nextIndex l s.switch.token })
  | none =>
    (s.setChain c,
     { target := r.position, kind := .mapSeal,
       payload := sealPayload (mapOf s.switch.plan r.position).length s.switch.token true s.switch.epoch })

/-- R119: the granted chain client sends one item. -/
def State.sendChain (item : ChainItem) (s : State) : State × ControlMsg :=
  match item with
  | .bringUpExtend =>
    match s.chain.bringUp with
    | some b => (s, bareMessage (b.position - 1) .extend)
    | none => (s, ControlMsg.idle)
  | .bringUpSeek =>
    match s.chain.bringUp with
    | some b => (s, bareMessage b.position .seek)
    | none => (s, ControlMsg.idle)
  | .extend =>
    match s.chain.extendPending with
    | some p => (s, bareMessage p .extend)
    | none => (s, ControlMsg.idle)
  | .resyncLine | .resyncSeal =>
    match s.chain.resync with
    | some r => s.sendResync r
    | none => (s, ControlMsg.idle)
  | .probe => (s.setChain { s.chain with probePending := false }, bareMessage (s.chain.endM + 1) .seek)

/-! ### The grant (R135 to R138) -/

/-- R136: the first system client with work. -/
def State.systemClient (s : State) : Option Client :=
  if s.switch.hasWork then some .switch
  else
    match s.chainItem with
    | some i => some (.chain i)
    | none => if s.fetchWork then some .fetch else none

/-- R137: the ports in round-robin order after a port. -/
def hostOrder (last : Port) : List Port := [last + 1, last + 2, last + 3, last]

/-- R137: the first port with work, in round-robin order after the last granted one. -/
def State.hostClient (s : State) : Option Client :=
  ((hostOrder s.arbiter.lastGranted).find? fun p => !(s.remoteQueue p).isEmpty).map Client.host

/-- R138: the chain client when a bring-up message is due. -/
def State.bringUpClient (s : State) : Option Client :=
  match s.chain.bringUp with
  | some b =>
    match b.due with
    | .nothing => none
    | .extend => some (.chain .bringUpExtend)
    | .seek => some (.chain .bringUpSeek)
  | none => none

/-- R135 to R138, Table 8-2: the client granted, after the head checks; even cycles are system turns. -/
def State.chosen (s : State) : Option Client :=
  match s.chain.state with
  | .off => none
  | .bringUp => s.bringUpClient
  | .running =>
    if s.cycle.counter.getLsbD 0 then s.hostClient.or s.systemClient else s.systemClient.or s.hostClient

/-- R88, R137, R142: the granted client fills the message; a host grant becomes the last granted port. -/
def State.fill (c : Option Client) (s : State) : State × ControlMsg :=
  match c with
  | none => (s, ControlMsg.idle)
  | some .switch => (s.setSwitch s.switch.send.1, s.switch.send.2)
  | some (.chain i) => s.sendChain i
  | some .fetch => s.sendFetch
  | some (.host p) => (s.setArbiter { s.arbiter with lastGranted := p }).sendRemote p

/-- R105: the bring-up record at a cycle start of BRINGUP. -/
def State.tickBringUp (s : State) : State :=
  match s.chain.state with
  | .bringUp => s.setChain { s.chain with bringUp := s.chain.bringUp.map BringUp.tick }
  | .off => s
  | .running => s

/-- R88, R135: the grant, the message and the record of the cycle. -/
def State.putMessage (c : Option Client) (m : ControlMsg) (s : State) : State :=
  (s.setArbiter { s.arbiter with grant := c }).setCycle
    { s.cycle with msg := m, record := some { client := c, target := m.target, kind := m.kind } }

/-- R135: the control slot of a cycle start for a client. -/
def State.grantTo (c : Option Client) (s : State) : State :=
  ((s.fill c).1.putMessage c (s.fill c).2).tickBringUp

/-- R135, R141: the head checks and the control slot of a cycle start. -/
def State.grantSlot (s : State) : State := s.headChecks.grantTo s.headChecks.chosen

/-! ### Probe count (R113) -/

/-- R113: the probe count reaches the interval. -/
def ChainManager.probeFalls (c : ChainManager) : ChainManager :=
  { c with probeCount := 0, probePending := decide (c.endM < Config.maxPosition) }

/-- R113: whether the probe count reaches the interval in force at the next cycle start. -/
def State.probeReaches (s : State) : Bool :=
  s.chain.state == .running && decide (s.switch.settings.probeInterval ≤ s.chain.probeCount + 1)

/-- R113: the probe count at a cycle start. -/
def State.tickProbe (s : State) : State :=
  match s.chain.state with
  | .off => s
  | .bringUp => s
  | .running =>
    if s.probeReaches then s.setChain s.chain.probeFalls
    else s.setChain { s.chain with probeCount := s.chain.probeCount + 1 }

/-! ### Lead block, gate and mute set (R66, R87, R98, R101) -/

/-- R17, R101: the lanes muted in a pass, of the gated placements of streams with causes. -/
def State.mutedLanes (s : State) (pass : Pass) (gated : List Nat) : List Nat :=
  gated.filter fun i => s.switch.plan.any fun e => e.covers pass i && !(s.stream e.handle).causes.isEmpty
    && (match pass with
        | .down => e.source == 0
        | .up => e.sinks.contains 0)

/-- R101: the mute set of the cycle that begins. -/
def State.muteSet (s : State) : LaneSets :=
  { down := s.mutedLanes .down (gateOf s.switch.plan).down, up := s.mutedLanes .up (gateOf s.switch.plan).up }

/-- R66, R87: the lead block. -/
def State.leadBlock (s : State) : LeadBlock :=
  { cycle := s.cycle.counter.setWidth 16, epoch := s.switch.epoch
    countdown := if s.switch.phase = .countdown then s.switch.countdown else 0
    token := s.switch.token, msg := s.cycle.msg }

/-- R74: in COUNTDOWN the countdown decreases by one after the lead block has carried it. -/
def SwitchEngine.stepCountdown (x : SwitchEngine) : SwitchEngine :=
  if x.phase = .countdown then { x with countdown := x.countdown - 1 } else x

/-- A sample carried through a gate and a mute set, else 0 (R91, R100). -/
def carried (gate mute : List Nat) (samples : Tab Sample 64) (i : Fin 64) : Sample :=
  if gate.contains i.val = true ∧ mute.contains i.val = false then samples.get i else 0#16

/-- R91: the down lanes the head drives. -/
def downPass (gate mute : LaneSets) (mediaIn : Tab Sample 64) : Tab Sample 64 := Tab.ofFn (carried gate.down mute.down mediaIn)

/-- R100: the media frame that presents the up lanes of a cycle, under that cycle's gate and mute set. -/
def mediaFrame (gate mute : LaneSets) (upLanes : Tab Sample 64) : Tab Sample 64 := Tab.ofFn (carried gate.up mute.up upLanes)

/-- R104, R105: the first cycle start takes the chain from OFF to BRINGUP. -/
def State.firstBringUp (s : State) : State :=
  match s.chain.state with
  | .off => (s.setChain { s.chain with state := .bringUp, bringUp := some BringUp.first }).enablePort
  | .bringUp => s
  | .running => s

/-- R66, R87, R91, R95, R98, R100, R101: the lead block is built and sent, with the gate and mute set of the cycle; the
down pass follows it, the media frame of the cycle before begins, the receive window opens. -/
def State.sendLead (mediaIn : Tab Sample 64) (s : State) : State :=
  (s.setCycle { s.cycle with
      lead := some s.leadBlock, window := true, gate := gateOf s.switch.plan, mute := s.muteSet
      downLanes := downPass (gateOf s.switch.plan) s.muteSet mediaIn
      mediaOut := mediaFrame s.cycle.gate s.cycle.mute s.cycle.upLanes }).setSwitch s.switch.stepCountdown

/-! ### The cycle start -/

/-- One act of a cycle start. -/
def State.runAct (mediaIn : Tab Sample 64) (s : State) (a : CycleAct) : State :=
  match a with
  | .lease p => s.tickLease p
  | .switch => s.switchCycle
  | .probe => s.tickProbe
  | .slot => s.grantSlot
  | .lead => s.firstBringUp.sendLead mediaIn

/-- Every act of a cycle start, in the order of the manual's own examples. -/
def allActs : List CycleAct := allPorts.map CycleAct.lease ++ [.switch, .probe, .slot, .lead]

/-- Whether an act feeds the lead block: the switch cycle and the grant come before it (R66, R88). -/
def feedsLead (a : CycleAct) : Bool := a == .switch || a == .slot

/-- The acts with the lead block after the acts that feed it. -/
def leadAfter (acts : List CycleAct) : List CycleAct :=
  let before := acts.takeWhile (· != .lead)
  let rest := (acts.dropWhile (· != .lead)).drop 1
  before ++ rest.filter feedsLead ++ [.lead] ++ rest.filter fun a => !feedsLead a

/-- The acts of a cycle start in the order a command names. -/
def actsOf (order : List CycleAct) : List CycleAct := leadAfter (complete allActs order)

/-- Whether an act of the cycle start in progress has been made ahead of CYCLE_START, by the row that is that act. -/
def CycleEngine.made (a : CycleAct) (c : CycleEngine) : Bool :=
  match c.begun with
  | some l => l.contains a
  | none => false

/-- The acts a CYCLE_START makes, in the order a command names: all that have not been made ahead of it. -/
def State.actsLeft (order : List CycleAct) (s : State) : List CycleAct := (actsOf order).filter fun a => !s.cycle.made a

/-- R87: the acts of a cycle start, which ends with them. -/
def State.makeActs (mediaIn : Tab Sample 64) (order : List CycleAct) (s : State) : State :=
  let t := (s.actsLeft order).foldl (State.runAct mediaIn) s
  t.setCycle { t.cycle with begun := none }

/-! ### The trail arrival (R88, R95, R97) -/

/-- The record of a cycle in which no client is granted. -/
def SlotRecord.idle : SlotRecord := { client := none, target := 0, kind := .none }

/-- The record of the cycle's message. -/
def CycleEngine.recordOf (c : CycleEngine) : SlotRecord :=
  match c.record with
  | some r => r
  | none => SlotRecord.idle

/-- R95 to R97: what a trail arrival brings its readers; `up` is none when the window closed without an up pass. -/
def State.arrival (s : State) (up : Option UpPass) : Arrival :=
  let t := match up with
    | some u => sortTrail u
    | none => Trail.none
  let r := s.cycle.recordOf
  { trail := t, record := r
    answer := match up with
      | some u => if r.client.isSome then validAnswer r u.answer else none
      | none => none
    token := s.switch.token, losses := s.chain.breakLosses t.reach }

/-- R88, R95: the Cycle Engine at a trail arrival: the record is discarded, the window is done, the up lanes are kept for
the next frame. -/
def CycleEngine.arrived (up : Option UpPass) (c : CycleEngine) : CycleEngine :=
  { c with record := none, window := false
           upLanes := match up with
             | some u => u.lanes
             | none => silence }

/-- Section 5.5: one reader takes what it needs of the trail; what it sets free is taken at once (R56, R116). -/
def State.runReader (a : Arrival) (m : Meet) (s : State) (r : Reader) : State :=
  match r with
  | .hop => (s.readHops a).settleWork m
  | .chain => (s.readChain a m).settleWork m
  | .switch => (s.readSwitch a).settleWork m
  | .fetch => (s.readFetch a).settleWork m
  | .remote => (s.readRemote a).settleWork m

/-- The five readers. -/
def allReaders : List Reader := [.hop, .chain, .switch, .fetch, .remote]

/-- R95: the trail arrival of the cycle, once, while its window is open. -/
def State.arrive (up : Option UpPass) (o : TrailOrder) (s : State) : State :=
  if s.cycle.window then
    (complete allReaders o.readers).foldl (State.runReader (s.arrival up) o.meet)
      (s.setCycle (s.cycle.arrived up))
  else s

/-- The order of the readers' table in section 5.5, with endpoints entering RESYNCING first. -/
def TrailOrder.default : TrailOrder := { readers := allReaders, meet := .resyncFirst }

/-- R86, R95: a cycle start begins: a window still open closes before it, then the counter increases by one. In a cycle
start that has begun it does neither. -/
def State.openCycle (s : State) : State :=
  match s.cycle.begun with
  | some _ => s
  | none =>
    let u := s.arrive none TrailOrder.default
    u.setCycle { u.cycle with counter := u.cycle.counter + 1, begun := some [] }

/-- R86, R87: CYCLE_START: the cycle start begins, or goes on, and is made whole. -/
def State.nextCycle (mediaIn : Tab Sample 64) (order : List CycleAct) (s : State) : State :=
  s.openCycle.makeActs mediaIn order

/-- An act is noted as made ahead of CYCLE_START. -/
def State.noteAct (a : CycleAct) (s : State) : State := s.setCycle { s.cycle with begun := s.cycle.begun.map (a :: ·) }

/-- A row that is one act of a cycle start (assumption 22): where the act is due at the next cycle start, or at the one in
progress, and has not been made at it, the cycle start begins and the act is made ahead of the CYCLE_START that makes the
rest. Elsewhere it does not happen. -/
def State.actAlone (due : State → Bool) (a : CycleAct) (act : State → State) (s : State) : State :=
  if due s.openCycle && !s.openCycle.cycle.made a then (act s.openCycle).noteAct a else s

end Sys2Proof.Machine
end

