-- ==== Sys2Proof/Machine/Drafts.lean ====
section
/-! DEFINITION. The Draft Store and the Commit Queue (sections 3.1 to 3.3): what the owners make of their requests. -/

namespace Sys2Proof.Machine

/-! ### Staging (R44 to R47) -/

/-- Checks 2 and 3 of Table 3-4: the refusal of a draft that can take no entry. -/
def Draft.closedTo (d : Draft) : Option Status :=
  if d.state = .queued ∨ d.state = .active then some .draftBusy
  else if Config.draftSize ≤ d.entries.length then some .draftFull
  else none

/-- R43, R44: an entry appended; an EMPTY draft becomes OPEN for the port's session. -/
def Draft.append (session : Nat) (e : DraftEntry) (d : Draft) : Draft :=
  { d with entries := d.entries ++ [e], state := .opened,
           session := if d.state = .empty then some session else d.session }

/-- R44: an entry of a port staged. -/
def State.stage (p : Port) (e : DraftEntry) (s : State) : State :=
  s.setDraft p ((s.draft p).append (s.port p).session e)

/-- Whether a handle stands in an entry of a draft. -/
def Draft.names (d : Draft) (h : Handle) : Bool := d.entries.any fun e => e.handle? == some h

/-- R3: the lowest FREE handle that stands in no entry of the requester's draft. -/
def State.allocatable (s : State) (p : Port) : Option Handle :=
  allHandles.find? fun h => (s.stream h).state == .free && !(s.draft p).names h

/-- R3: the record of a newly allocated stream. -/
def State.newStream (s : State) (p : Port) (source : Nat) (sinks : List Nat) (lanes : Nat) (label : BitVec 16) : Stream :=
  { Stream.free with state := .staged, owner := some (p, (s.port p).session), label := label, source := source,
                     sinks := sinks, lanes := lanes, causes := s.chain.causes source sinks }

/-- R45: DRAFT_OPEN. -/
def State.takeDraftOpen (p : Port) (a : OpenArgs) (s : State) : State × Response :=
  match openOf a with
  | none => (s, reply .badValue)
  | some (source, sinks, lanes) =>
    match (s.draft p).closedTo with
    | some st => (s, reply st)
    | none =>
      if (endpointsOf source sinks).any fun q => !s.chain.isReady q then (s, reply .notReady)
      else
        match s.allocatable p with
        | none => (s, reply .noHandle)
        | some h =>
          ((s.setStream h (s.newStream p source (ascending sinks) lanes a.label)).stage p
              (.opening h source (ascending sinks) lanes a.label),
           { status := .ok, body := .opened (s.draft p).entries.length h })

/-- R46: checks 1 to 4 of a staged CLOSE or RESIZE. -/
def State.closable (s : State) (p : Port) (h : Handle) : Option Status :=
  let r := s.stream h
  if (s.draft p).names h then some .duplicate
  else if r.state = .free then some .notFound
  else if s.owns p r = false then some .notOwner
  else if (r.state ≠ .live ∧ r.state ≠ .suspended) ∨ r.mark ≠ .none then some .notFound
  else none

/-- R44: an entry staged, answered with its index. -/
def State.staged (p : Port) (e : DraftEntry) (s : State) : State × Response :=
  (s.stage p e, { status := .ok, body := .index (s.draft p).entries.length })

/-- R46: DRAFT_CLOSE. -/
def State.takeDraftClose (p : Port) (b : Byte) (s : State) : State × Response :=
  match handleOf b with
  | none => (s, reply .badValue)
  | some h =>
    match (s.draft p).closedTo with
    | some st => (s, reply st)
    | none =>
      match s.closable p h with
      | some st => (s, reply st)
      | none => s.staged p (.closing h)

/-- R46: DRAFT_RESIZE. -/
def State.takeDraftResize (p : Port) (a : ResizeArgs) (s : State) : State × Response :=
  match handleOf a.handle, lanesOf a.lanes with
  | some h, some n =>
    match (s.draft p).closedTo with
    | some st => (s, reply st)
    | none =>
      match s.closable p h with
      | some st => (s, reply st)
      | none => if n = (s.stream h).lanes then (s, reply .badValue) else s.staged p (.resizing h n)
  | _, _ => (s, reply .badValue)

/-- R47: DRAFT_SET. -/
def State.takeDraftSet (p : Port) (a : SetArgs) (s : State) : State × Response :=
  match settingSetOf a with
  | none => (s, reply .badValue)
  | some (k, v) =>
    match (s.draft p).closedTo with
    | some st => (s, reply st)
    | none => s.staged p (.setting k v)

/-! ### Removing entries (R48, R49) -/

/-- R48: the draft without the entry at an index. -/
def Draft.remove (i : Nat) (d : Draft) : Draft :=
  if (d.entries.eraseIdx i).isEmpty then Draft.empty else { d with entries := d.entries.eraseIdx i }

/-- R48: DRAFT_DROP. -/
def State.takeDraftDrop (p : Port) (b : Byte) (s : State) : State × Response :=
  match indexOf b with
  | none => (s, reply .badValue)
  | some i =>
    if (s.draft p).state = .queued ∨ (s.draft p).state = .active then (s, reply .draftBusy)
    else
      match (s.draft p).entries[i]? with
      | none => (s, reply .notFound)
      | some e => ((s.freeOpened [e]).setDraft p ((s.draft p).remove i), reply .ok)

/-- R49: DRAFT_CLEAR. -/
def State.takeDraftClear (p : Port) (_ : Unit) (s : State) : State × Response :=
  match (s.draft p).state with
  | .queued => (s, reply .draftBusy)
  | .active => (s, reply .draftBusy)
  | .empty => (s, reply .ok)
  | .opened => (s.discardDraft p, reply .ok)

/-! ### Viewing (R50) -/

/-- The entries a draft shows: none while its session has ended (R50). -/
def Draft.shown (d : Draft) : List DraftEntry := if d.ended then [] else d.entries

/-- R50: the place of a port's commit in the commit queue, 1 the oldest. -/
def State.placeOf (s : State) (p : Port) : Option Nat :=
  match s.commits.findIdx? fun c => c.port == p with
  | some i => some (i + 1)
  | none => none

/-- R50: the body of DRAFT_VIEW from a first index. -/
def State.draftViewBody (s : State) (p : Port) (first : Nat) : DraftViewBody :=
  let d := s.draft p
  { state := d.reported
    count := d.shown.length
    flags := if d.state = .queued ∨ d.state = .active then d.flags else none
    place := if d.state = .queued then s.placeOf p else none
    entries := ((d.shown.zipIdx).map fun x => (x.2, x.1)).drop first |>.take 2
    next := if first + 2 < d.shown.length then some (first + 2) else none }

/-- R50: DRAFT_VIEW. -/
def State.takeDraftView (p : Port) (b : Byte) (s : State) : State × Response :=
  match indexOf b with
  | none => (s, reply .badValue)
  | some i => (s, { status := .ok, body := .draftView (s.draftViewBody p i) })

/-! ### Commit and withdraw (R51, R52) -/

/-- R51: the commit of a port joins the queue. -/
def State.enqueue (p : Port) (f : CommitFlags) (s : State) : State :=
  (s.setDraft p { s.draft p with state := .queued, flags := some f }).setCommits
    (s.commits ++ [{ port := p, session := (s.port p).session, flags := f }])

/-- R51: COMMIT. -/
def State.takeCommit (p : Port) (b : Byte) (s : State) : State × Response :=
  match flagsOf b with
  | none => (s, reply .badValue)
  | some f =>
    match (s.draft p).state with
    | .opened => (s.enqueue p f, reply .accepted)
    | .empty => (s, reply .notFound)
    | .queued => (s, reply .draftBusy)
    | .active => (s, reply .draftBusy)

/-- R52: WITHDRAW. -/
def State.takeWithdraw (p : Port) (_ : Unit) (s : State) : State × Response :=
  match (s.draft p).state with
  | .queued => ((s.dropCommit p).setDraft p { s.draft p with state := .opened, flags := none }, reply .ok)
  | .active => (s, reply .switchBusy)
  | .empty => (s, reply .notFound)
  | .opened => (s, reply .notFound)

end Sys2Proof.Machine
end

