-- ==== Sys2Proof/Machine/Queries.lean ====
section
/-! DEFINITION. The requests that read (R19, R20, R85, R120), and the requests of the Remote Access Unit (R140) and the
Router (R162, R164). -/

namespace Sys2Proof.Machine

/-! ### Streams (R19, R20) -/

/-- R19: STREAM_INFO. -/
def State.takeStreamInfo (b : Byte) (s : State) : State × Response :=
  match handleOf b with
  | none => (s, reply .badValue)
  | some h => (s, { status := .ok, body := .stream h (s.stream h) })

/-- R20: the non-FREE handles at or above a first handle, ascending. -/
def State.listable (s : State) (first : Handle) : List Handle :=
  allHandles.filter fun h => decide (first ≤ h) && (s.stream h).state != .free

/-- R20: an item of LIST_STREAMS. -/
def State.listItem (s : State) (h : Handle) : ListItem :=
  { handle := h, state := (s.stream h).state, ownerPort := (s.stream h).owner.map Prod.fst, orphan := (s.stream h).orphan }

/-- R20: LIST_STREAMS. -/
def State.takeListStreams (b : Byte) (s : State) : State × Response :=
  match handleOf b with
  | none => (s, reply .badValue)
  | some first =>
    (s, { status := .ok
          body := .streams (((s.listable first).take 8).map s.listItem) ((s.listable first).drop 8).head? })

/-! ### Plan and chain (R85, R120) -/

/-- R85: the body of PLAN_INFO. -/
def State.planInfoBody (s : State) : PlanInfoBody :=
  { epoch := s.switch.epoch, phase := s.switch.phase, token := s.switch.token
    countdown := if s.switch.phase = .countdown then s.switch.countdown else 0
    downFree := freeCount s.switch.plan .down, upFree := freeCount s.switch.plan .up, queueLength := s.commits.length
    affected := if s.switch.phase = .idle then none else s.switch.batch.map fun b => b.affected.length
    ready := if s.switch.phase = .prepare then some (s.switch.transfers.countP fun t => t.status == .ready) else none }

/-- R85: PLAN_INFO. -/
def State.takePlanInfo (_ : Unit) (s : State) : State × Response := (s, { status := .ok, body := .plan s.planInfoBody })

/-- R120: the chain summary. -/
def ChainManager.summary (c : ChainManager) : ChainSummary :=
  { state := c.state, endM := c.endM
    bringUp := if c.state = .bringUp then c.bringUp.map BringUp.position else none
    lastReach := c.lastReach, lastMissing := c.lastMissing, breakCount := c.breakCount
    resync := c.resync.map ResyncTransfer.position }

/-- R120: CHAIN_INFO. -/
def State.takeChainInfo (b : Byte) (s : State) : State × Response :=
  match positionOf b with
  | none => (s, reply .badValue)
  | some q =>
    if q.val = 0 then (s, { status := .ok, body := .summary s.chain.summary })
    else (s, { status := .ok, body := .entry q.val (s.entry q.val) })

/-! ### Remote requests (R140) -/

/-- R140 check 2: whether a write touches the map window. -/
def RemoteRequest.touchesWindow (r : RemoteRequest) : Bool :=
  r.kind != .read && decide (Config.mapWindow ≤ r.address + r.length - 1)

/-- R140 check 3: whether the target of a request is READY; for ALL, whether some position is. -/
def ChainManager.targetReady (c : ChainManager) (r : RemoteRequest) : Bool :=
  match r.target with
  | some t => c.isReady t
  | none => !c.readyPositions.isEmpty

/-- R140: a request whose field values are in range, or none when check 1 refuses it. -/
def State.takeRemote (p : Port) (r : Option RemoteRequest) (s : State) : State × Response :=
  match r with
  | none => (s, reply .badValue)
  | some r =>
    if r.touchesWindow then (s, reply .writeProtected)
    else if s.chain.targetReady r = false then (s, reply .targetUnreachable)
    else if Config.remoteSize ≤ s.remoteHeld p then (s, reply .queueFull)
    else (s.setRemoteQueue p (s.remoteQueue p ++ [{ r with session := (s.port p).session }]), reply .accepted)

/-- R140: REMOTE_READ. -/
def State.takeRemoteRead (p : Port) (a : ReadArgs) (s : State) : State × Response := s.takeRemote p (readOf a)

/-- R140: REMOTE_WRITE. -/
def State.takeRemoteWrite (p : Port) (a : WriteArgs) (s : State) : State × Response := s.takeRemote p (writeOf a)

/-! ### The Router's requests (R162, R164) -/

/-- R164: SUBSCRIBE. -/
def State.takeSubscribe (p : Port) (a : SubscribeArgs) (s : State) : State × Response :=
  match positionOf a.position with
  | none => (s, reply .badValue)
  | some q =>
    (s.setRouter p { s.routerPort p with subscriptions := (s.routerPort p).subscriptions.set q a.classes }, reply .ok)

/-- R162: READ_QUEUE. -/
def State.takeReadQueue (p : Port) (b : Byte) (s : State) : State × Response :=
  match countOf b with
  | none => (s, reply .badValue)
  | some n =>
    let r := s.routerPort p
    (s.setRouter p (r.read n),
     { status := .ok, body := .queue (r.queue.take n) (r.queue.drop n).length r.lost r.noticeLoss })

end Sys2Proof.Machine
end

