-- ==== Sys2Proof/Machine/HostCommands.lean ====
section
/-! DEFINITION. The meanings of the commands of the hosts: the transactions of the host ports (chapter 10). -/

namespace Sys2Proof.Machine

/-- R86: what a command makes of the head while the reset line is high; a head held in reset takes nothing
(assumption 2). -/
def State.whenReleased (f : State → State) (s : State) : Host.Outcome State Fault Refusal :=
  .next (if s.resetHigh then f s else s)

/-! ### Frames that reach no owner, and reads of the slot -/

/-- FRAME_ERROR (R173 step 2, R180). -/
def execFrameError (p : Port) (_bytes : List Byte) (s : State) : Host.Outcome State Fault Refusal :=
  s.whenReleased (State.refuse p .frameError)

/-- BAD_REQUEST (R173 step 3). -/
def execBadRequest (p : Port) (_code : Byte) (_body : List Byte) (s : State) : Host.Outcome State Fault Refusal :=
  s.whenReleased (State.refuse p .badRequest)

/-- RESPONSE_READ (R174, R180). -/
def execResponseRead (p : Port) (clocks : Nat) (s : State) : Host.Outcome State Fault Refusal :=
  s.whenReleased fun s => s.setPort p ((s.port p).readOut clocks)

/-! ### Requests, in the order of Table 10-4 -/

/-- ATTACH (R169). -/
def execAttach (p : Port) (lease : Sized Byte) (s : State) : Host.Outcome State Fault Refusal :=
  s.whenReleased (State.request true p lease (State.takeAttach p))

/-- DETACH (R170); a batch the release marks call for forms after the session end (R167). -/
def execDetach (p : Port) (body : Sized Unit) (s : State) : Host.Outcome State Fault Refusal :=
  s.whenReleased (State.requestThen false p body (State.takeDetach p) State.formIfDue)

/-- PORT_STATUS (R178). -/
def execPortStatus (p : Port) (body : Sized Unit) (s : State) : Host.Outcome State Fault Refusal :=
  s.whenReleased (State.request true p body (State.takePortStatus p))

/-- DRAFT_OPEN (R44, R45, R3). -/
def execDraftOpen (p : Port) (args : Sized OpenArgs) (s : State) : Host.Outcome State Fault Refusal :=
  s.whenReleased (State.request false p args (State.takeDraftOpen p))

/-- DRAFT_CLOSE (R44, R46). -/
def execDraftClose (p : Port) (handle : Sized Byte) (s : State) : Host.Outcome State Fault Refusal :=
  s.whenReleased (State.request false p handle (State.takeDraftClose p))

/-- DRAFT_RESIZE (R44, R46). -/
def execDraftResize (p : Port) (args : Sized ResizeArgs) (s : State) : Host.Outcome State Fault Refusal :=
  s.whenReleased (State.request false p args (State.takeDraftResize p))

/-- DRAFT_SET (R44, R47). -/
def execDraftSet (p : Port) (args : Sized SetArgs) (s : State) : Host.Outcome State Fault Refusal :=
  s.whenReleased (State.request false p args (State.takeDraftSet p))

/-- DRAFT_DROP (R48). -/
def execDraftDrop (p : Port) (index : Sized Byte) (s : State) : Host.Outcome State Fault Refusal :=
  s.whenReleased (State.request false p index (State.takeDraftDrop p))

/-- DRAFT_CLEAR (R49). -/
def execDraftClear (p : Port) (body : Sized Unit) (s : State) : Host.Outcome State Fault Refusal :=
  s.whenReleased (State.request false p body (State.takeDraftClear p))

/-- DRAFT_VIEW (R50). -/
def execDraftView (p : Port) (first : Sized Byte) (s : State) : Host.Outcome State Fault Refusal :=
  s.whenReleased (State.request false p first (State.takeDraftView p))

/-- COMMIT (R51); a batch it makes due forms at once after the response (R56). -/
def execCommit (p : Port) (flags : Sized Byte) (s : State) : Host.Outcome State Fault Refusal :=
  s.whenReleased (State.requestThen false p flags (State.takeCommit p) State.formIfDue)

/-- WITHDRAW (R52). -/
def execWithdraw (p : Port) (body : Sized Unit) (s : State) : Host.Outcome State Fault Refusal :=
  s.whenReleased (State.request false p body (State.takeWithdraw p))

/-- STREAM_INFO (R19). -/
def execStreamInfo (p : Port) (handle : Sized Byte) (s : State) : Host.Outcome State Fault Refusal :=
  s.whenReleased (State.request false p handle State.takeStreamInfo)

/-- LIST_STREAMS (R20). -/
def execListStreams (p : Port) (first : Sized Byte) (s : State) : Host.Outcome State Fault Refusal :=
  s.whenReleased (State.request false p first State.takeListStreams)

/-- PLAN_INFO (R85). -/
def execPlanInfo (p : Port) (body : Sized Unit) (s : State) : Host.Outcome State Fault Refusal :=
  s.whenReleased (State.request false p body State.takePlanInfo)

/-- CHAIN_INFO (R120). -/
def execChainInfo (p : Port) (position : Sized Byte) (s : State) : Host.Outcome State Fault Refusal :=
  s.whenReleased (State.request false p position State.takeChainInfo)

/-- CHAIN_RESTART (R121, R122). -/
def execChainRestart (p : Port) (body : Sized Unit) (s : State) : Host.Outcome State Fault Refusal :=
  s.whenReleased (State.request false p body (State.takeChainRestart p))

/-- REMOTE_READ (R140). -/
def execRemoteRead (p : Port) (args : Sized ReadArgs) (s : State) : Host.Outcome State Fault Refusal :=
  s.whenReleased (State.request false p args (State.takeRemoteRead p))

/-- REMOTE_WRITE (R140). -/
def execRemoteWrite (p : Port) (args : Sized WriteArgs) (s : State) : Host.Outcome State Fault Refusal :=
  s.whenReleased (State.request false p args (State.takeRemoteWrite p))

/-- SUBSCRIBE (R164). -/
def execSubscribe (p : Port) (args : Sized SubscribeArgs) (s : State) : Host.Outcome State Fault Refusal :=
  s.whenReleased (State.request false p args (State.takeSubscribe p))

/-- READ_QUEUE (R162). -/
def execReadQueue (p : Port) (n : Sized Byte) (s : State) : Host.Outcome State Fault Refusal :=
  s.whenReleased (State.request false p n (State.takeReadQueue p))

end Sys2Proof.Machine
end

