-- ==== Sys2Proof/Machine/EventCommands.lean ====
section
/-! DEFINITION. The meanings of the commands that are no transaction of a host: the reset line, the cycle, and the
internal events of the head. An internal event is the event alone, under the condition its rule gives; where the
condition does not hold the event does not happen and nothing changes. CYCLE_START, TRAIL_ARRIVAL and
RECEIVE_WINDOW_CLOSE bring about the internal events that fall within them themselves. The four rows that fall at a cycle
start (LEASE_EXPIRY, PROBE_DUE, BRINGUP_SEEK, SWITCH_CYCLE) begin it, the counter at its number, and the CYCLE_START that
follows makes the rest of it (assumption 22). -/

namespace Sys2Proof.Machine

/-! ### Reset and the cycle -/

/-- DEVICE_RESET (R86): every block takes its reset values and the head is held while the line is low. The commands that
wait are outside the head and stay. -/
def execDeviceReset (s : State) : Host.Outcome State Fault Refusal :=
  .next { State.reset with resetHigh := false, pending := s.pending }

/-- RESET_RELEASE (R86): the reset line returns high. -/
def execResetRelease (s : State) : Host.Outcome State Fault Refusal := .next { s with resetHigh := true }

/-- CYCLE_START (R86, R87). -/
def execCycleStart (mediaIn : Tab Sample 64) (order : List CycleAct) (s : State) : Host.Outcome State Fault Refusal :=
  s.whenReleased (State.nextCycle mediaIn order)

/-- TRAIL_ARRIVAL (R95): a complete up pass within the window; one that arrives after the close is discarded. -/
def execTrailArrival (up : UpPass) (order : TrailOrder) (s : State) : Host.Outcome State Fault Refusal :=
  s.whenReleased (State.arrive (some up) order)

/-- RECEIVE_WINDOW_CLOSE (R95): the window closes without a complete up pass. -/
def execReceiveWindowClose (order : TrailOrder) (s : State) : Host.Outcome State Fault Refusal :=
  s.whenReleased (State.arrive none order)

/-! ### Internal events -/

/-- A change that happens only under its condition. -/
def State.underGuard (c : State → Bool) (f : State → State) (s : State) : State := if c s then f s else s

/-- R171, R172: whether the next cycle start's decrease expires a port's lease. -/
def State.leaseEnds (p : Port) (s : State) : Bool :=
  s.attached p && (match (s.port p).leaseCount with
    | some n => decide (n ≤ 1)
    | none => false)

/-- LEASE_EXPIRY (R171, R172), at the cycle start at which the count reaches 0. That the row begins that cycle start is the
model's choice (assumption 22). -/
def execLeaseExpiry (p : Port) (s : State) : Host.Outcome State Fault Refusal :=
  s.whenReleased (State.actAlone (State.leaseEnds p) (.lease p) (State.expireLease p))

/-- PROBE_DUE (R113), at the cycle start at which the probe count reaches the interval (assumption 22). -/
def execProbeDue (s : State) : Host.Outcome State Fault Refusal :=
  s.whenReleased (State.actAlone State.probeReaches .probe State.tickProbe)

/-- R105: whether a SEEK is due at the next cycle start. -/
def State.seekDue (s : State) : Bool :=
  s.chain.state == .bringUp && s.bringUpClient == some (.chain .bringUpSeek)

/-- BRINGUP_SEEK (R88, R105, R107): the control slot of the cycle start goes to the chain client for the SEEK, which the lead
block of the CYCLE_START that follows carries (assumption 22). -/
def execBringupSeek (s : State) : Host.Outcome State Fault Refusal :=
  s.whenReleased (State.actAlone State.seekDue .slot State.grantSlot)

/-- R75: whether the next plan becomes active at the cycle start. -/
def State.switchReady (s : State) : Bool := s.switchDue && s.switch.batch.isSome

/-- SWITCH_CYCLE (R75 to R77), at the cycle start of C, whose number every item carries (assumption 22). -/
def execSwitchCycle (s : State) : Host.Outcome State Fault Refusal :=
  s.whenReleased (State.actAlone State.switchReady .switch State.switchCycle)

/-- BATCH_FORMATION (R56). -/
def execBatchFormation (s : State) : Host.Outcome State Fault Refusal := s.whenReleased State.formIfDue

/-- R131: whether an isolated hop's clean run has reached 256. -/
def State.hopRecovers (hop : Nat) (s : State) : Bool :=
  (s.entry hop).hopState == .isolated && decide (Config.recoverRun ≤ (s.entry hop).cleanRun)

/-- ISOLATION_RECOVERY (R131, R132, R134); the Chain Manager's entries into RESYNCING follow the report. -/
def execIsolationRecovery (hop : Nat) (s : State) : Host.Outcome State Fault Refusal :=
  s.whenReleased (State.underGuard (State.hopRecovers hop) fun s => (s.recoverHop hop).settleWork .resyncFirst)

/-- BREAK_DETECTED (R110, R111). -/
def execBreakDetected (meet : Meet) (s : State) : Host.Outcome State Fault Refusal :=
  s.whenReleased (State.underGuard (fun s => s.chain.broken) fun s => s.breakChain.settleWork meet)

/-- R108, R117: one JOINING entry at 16 leaves for READY or, with the Switch Engine IDLE, for RESYNCING; else it stays. -/
def State.leaveJoining (p : Nat) (s : State) : State :=
  if ((s.moveEntry p).entry p).state = .resyncing then (s.moveEntry p).ensureResync else s.moveEntry p

/-- QUIET_COUNT_COMPLETE (R108). -/
def execQuietCountComplete (position : Nat) (s : State) : Host.Outcome State Fault Refusal :=
  s.whenReleased (State.underGuard (fun s => (s.entry position).proven) (State.leaveJoining position))

/-- RESYNC_ENTRY (R116, R117): every entry that qualifies enters RESYNCING. -/
def execResyncEntry (s : State) : Host.Outcome State Fault Refusal :=
  s.whenReleased (State.underGuard State.idle fun s => s.moveEntries.ensureResync)

/-- R70: whether a PREPARE has reached its timeout. -/
def State.prepareExpired (s : State) : Bool := s.switch.phase == .prepare && s.switch.timedOut

/-- PREPARE_TIMEOUT (R70, R80, R81). -/
def execPrepareTimeout (meet : Meet) (s : State) : Host.Outcome State Fault Refusal :=
  s.whenReleased (State.underGuard State.prepareExpired fun s => (s.abandon .timeout).settleWork meet)

/-- R79: whether the settle count has reached 0. -/
def State.settleOver (s : State) : Bool := s.switch.phase == .settle && s.switch.settle == 0

/-- SETTLE_END (R79). -/
def execSettleEnd (meet : Meet) (s : State) : Host.Outcome State Fault Refusal :=
  s.whenReleased (State.underGuard State.settleOver fun s => s.settleEnd.settleWork meet)

end Sys2Proof.Machine
end

