-- ==== Sys2Proof/Machine/Dispatch.lean ====
section
/-! DEFINITION. The dispatch of a command to its meaning, one arm per row of the table. -/

namespace Sys2Proof.Machine

def exec (i : Instr) (s : State) : Host.Outcome State Fault Refusal :=
  match i with
  | .deviceReset => Sys2Proof.Machine.execDeviceReset s
  | .cycleStart mediaIn order => Sys2Proof.Machine.execCycleStart mediaIn order s
  | .trailArrival up order => Sys2Proof.Machine.execTrailArrival up order s
  | .receiveWindowClose order => Sys2Proof.Machine.execReceiveWindowClose order s
  | .frameError p bytes => Sys2Proof.Machine.execFrameError p bytes s
  | .badRequest p code body => Sys2Proof.Machine.execBadRequest p code body s
  | .responseRead p clocks => Sys2Proof.Machine.execResponseRead p clocks s
  | .attach p lease => Sys2Proof.Machine.execAttach p lease s
  | .detach p body => Sys2Proof.Machine.execDetach p body s
  | .portStatus p body => Sys2Proof.Machine.execPortStatus p body s
  | .draftOpen p args => Sys2Proof.Machine.execDraftOpen p args s
  | .draftClose p handle => Sys2Proof.Machine.execDraftClose p handle s
  | .draftResize p args => Sys2Proof.Machine.execDraftResize p args s
  | .draftSet p args => Sys2Proof.Machine.execDraftSet p args s
  | .draftDrop p index => Sys2Proof.Machine.execDraftDrop p index s
  | .draftClear p body => Sys2Proof.Machine.execDraftClear p body s
  | .draftView p first => Sys2Proof.Machine.execDraftView p first s
  | .commit p flags => Sys2Proof.Machine.execCommit p flags s
  | .withdraw p body => Sys2Proof.Machine.execWithdraw p body s
  | .streamInfo p handle => Sys2Proof.Machine.execStreamInfo p handle s
  | .listStreams p first => Sys2Proof.Machine.execListStreams p first s
  | .planInfo p body => Sys2Proof.Machine.execPlanInfo p body s
  | .chainInfo p position => Sys2Proof.Machine.execChainInfo p position s
  | .chainRestart p body => Sys2Proof.Machine.execChainRestart p body s
  | .remoteRead p args => Sys2Proof.Machine.execRemoteRead p args s
  | .remoteWrite p args => Sys2Proof.Machine.execRemoteWrite p args s
  | .subscribe p args => Sys2Proof.Machine.execSubscribe p args s
  | .readQueue p n => Sys2Proof.Machine.execReadQueue p n s
  | .leaseExpiry p => Sys2Proof.Machine.execLeaseExpiry p s
  | .probeDue => Sys2Proof.Machine.execProbeDue s
  | .bringupSeek => Sys2Proof.Machine.execBringupSeek s
  | .switchCycle => Sys2Proof.Machine.execSwitchCycle s
  | .batchFormation => Sys2Proof.Machine.execBatchFormation s
  | .isolationRecovery hop => Sys2Proof.Machine.execIsolationRecovery hop s
  | .breakDetected meet => Sys2Proof.Machine.execBreakDetected meet s
  | .quietCountComplete position => Sys2Proof.Machine.execQuietCountComplete position s
  | .resyncEntry => Sys2Proof.Machine.execResyncEntry s
  | .prepareTimeout meet => Sys2Proof.Machine.execPrepareTimeout meet s
  | .settleEnd meet => Sys2Proof.Machine.execSettleEnd meet s
  | .resetRelease => Sys2Proof.Machine.execResetRelease s

end Sys2Proof.Machine
end

