-- ==== Sys2Proof/Machine/Step.lean ====
section
/-! DEFINITION. The step of the head: the command at the front of the queue, or idling on an empty one. -/

namespace Sys2Proof.Machine

/-- One step: the command at the front of the queue runs on the head with the queue's rest; with no command waiting the
block idles (assumption 3). -/
def step (s : State) : Host.Outcome State Fault Refusal :=
  match s.pending with
  | [] => .next s
  | c :: rest => exec c { s with pending := rest }

/-- The state with the command a table word spells at the front of its queue: no row of the table gives bits, so no word
spells one, and the state stays as it is. -/
def State.withFetchWord (s : State) (nbits w : Nat) : State :=
  match decodeTableWord nbits w with
  | some c => { s with pending := c :: s.pending }
  | none => s

end Sys2Proof.Machine
end

