-- ==== Sys2Proof/Safety.lean ====
section
/-! DEFINITION. What counts as a safe state of the head: the standing laws the manual's prose gives it. Each is stated of
one state; that every step keeps it is for the provers. -/

namespace Sys2Proof.Machine

/-! ### Port queues (R154, R161, R165) -/

/-- R154, R161: a port's queue holds at most 16 entries, at most 12 of them events, and its counter stops at 255. -/
def RouterPort.bounded (r : RouterPort) : Prop :=
  r.queue.length ≤ Config.queueSize ∧ eventCount r.queue ≤ Config.eventCap ∧ r.lost ≤ Config.lostMax

/-- R154 for every port. -/
def State.routerLaw (s : State) : Prop := ∀ p, (s.routerPort p).bounded

/-- R165: the attention line is asserted exactly while the port is ATTACHED and its queue holds an entry, and the queue
of a DETACHED port is empty. -/
def State.attentionLaw (s : State) : Prop :=
  ∀ p, (s.routerPort p).attention = (s.attached p && !(s.routerPort p).queue.isEmpty)
    ∧ (s.attached p = false → (s.routerPort p).queue = [])

/-! ### Streams (R16) -/

/-- R16: a LIVE stream has an empty cause set, and a SUSPENDED stream has a non-empty one. -/
def Stream.lawful (r : Stream) : Prop :=
  (r.state = .live → r.causes.isEmpty = true) ∧ (r.state = .suspended → r.causes.isEmpty = false)

/-- R16 for every record. -/
def State.streamLaw (s : State) : Prop := ∀ h, (s.stream h).lawful

/-! ### Drafts and commits (R53) -/

/-- R53: at most one entry of the commit queue per port; a draft is QUEUED exactly while its port's entry stands in the
queue; and the drafts of a batch in PREPARE or COUNTDOWN are ACTIVE. -/
def State.commitLaw (s : State) : Prop :=
  (s.commits.map CommitEntry.port).Nodup
    ∧ (∀ p, (s.draft p).state = .queued ↔ p ∈ s.commits.map CommitEntry.port)
    ∧ (s.switch.phase = .prepare ∨ s.switch.phase = .countdown →
        ∀ b, s.switch.batch = some b → ∀ x ∈ b.commits, (s.draft x.1).state = .active)

/-! ### The plan (R21) -/

/-- Two streams of a plan hold no lane of a pass in common. -/
def PlanEntry.apart (a b : PlanEntry) : Prop := ∀ pass lane, ¬(a.covers pass lane = true ∧ b.covers pass lane = true)

/-- R21: every run of a plan lies within lanes 0 to 63, and no lane of a pass belongs to two streams. -/
def planOk (w : Plan) : Prop :=
  (∀ e ∈ w, ∀ pass f, e.first pass = some f → f + e.lanes ≤ Config.lanes) ∧ w.Pairwise PlanEntry.apart

/-- R21 for the active plan and for the next plan of the batch in flight. -/
def State.planLaw (s : State) : Prop :=
  planOk s.switch.plan ∧ ∀ b, s.switch.batch = some b → planOk b.nextPlan

/-! ### The chain table and the hops (R104, R124, R129, R130) -/

/-- R104: the enrolled positions are exactly 1 to m; in BRINGUP the position sought is m + 1; before the first cycle start
none is enrolled; a resync transfer is to a RESYNCING position (R117). -/
def ChainManager.law (c : ChainManager) : Prop :=
  (∀ p, 1 ≤ p → p ≤ c.endM → (c.entry p).enrolled = true)
    ∧ (c.state = .bringUp → ∃ b, c.bringUp = some b ∧ b.position = c.endM + 1)
    ∧ (c.state = .off → c.endM = 0)
    ∧ (∀ r, c.resync = some r → (c.entry r.position).state = .resyncing)

/-- R104 for the head. -/
def State.chainLaw (s : State) : Prop := s.chain.law

/-- R124, R128 to R131: the score of a hop fits its grade, and only an ISOLATED hop has a clean run. -/
def ChainEntry.hopLawful (e : ChainEntry) : Prop :=
  match e.hopState with
  | .healthy => e.hopScore ≤ 95 ∧ e.cleanRun = 0
  | .degraded => 64 ≤ e.hopScore ∧ e.hopScore ≤ 191 ∧ e.cleanRun = 0
  | .isolated => 192 ≤ e.hopScore ∧ e.hopScore ≤ Config.hopCeiling ∧ e.cleanRun ≤ 256

/-- R124 for every hop. -/
def State.hopLaw (s : State) : Prop := ∀ p, (s.entry p).hopLawful

/-! ### Remote access (R139) -/

/-- R139: a port holds at most 4 remote requests. -/
def State.remoteLaw (s : State) : Prop := ∀ p, s.remoteHeld p ≤ Config.remoteSize

/-! ### The terms the statements are written in -/

/-- A port whose next request frame is handled: the reset line is high and the response slot is empty (R86, R173). -/
abbrev State.listens (s : State) (p : Port) : Prop := s.resetHigh = true ∧ (s.port p).slot = none

/-- A port that listens and holds a session. -/
abbrev State.serves (s : State) (p : Port) : Prop := s.resetHigh = true ∧ (s.port p).slot = none ∧ s.attached p = true

/-- R171, R174: a port after a request answered OK or ACCEPTED: the response in the slot, the lease renewed. -/
def PortContext.accepting (c : PortContext) (r : Response) : PortContext :=
  { c with slot := some r
           leaseCount := if c.state = .attached ∧ 1 ≤ c.lease then some (c.lease * 1024) else c.leaseCount }

/-- A request answered OK or ACCEPTED on a head that is otherwise `s`. -/
def State.accepted (s : State) (p : Port) (r : Response) : State := s.setPort p ((s.port p).accepting r)

/-- R176: a refused request: the response in the slot and nothing else. -/
def State.refused (s : State) (p : Port) (st : Status) : State :=
  s.setPort p { s.port p with slot := some { status := st, body := .empty } }

/-- The ops of some commits that name a handle, in their order (R5, R57). -/
def State.opsOn (s : State) (cs : List CommitEntry) (h : Handle) : List DraftEntry :=
  (cs.flatMap fun c => (s.draft c.port).entries).filter fun e => e.handle? == some h

/-- Whether the abandonment of a batch discards the draft whose OPEN entry names a handle (R63). -/
def State.discards (s : State) (b : Batch) (h : Handle) : Bool :=
  b.commits.any fun x => (s.draft x.1).ended && (s.draft x.1).entries.any fun e => e.opens? == some h

/-- R17: whether the head's own side of a stream of the plan is muted at a lane of a pass: it has a cause, and the head is
its source in the down pass, one of its sinks in the up pass. -/
def State.mutes (s : State) (pass : Pass) (lane : Nat) : Bool :=
  s.switch.plan.any fun e => e.covers pass lane && !(s.stream e.handle).causes.isEmpty
    && (match pass with
        | .down => e.source == 0
        | .up => e.sinks.contains 0)

/-- R69: whether the answer of a cycle is the OK of a seal with the token in force. -/
def Arrival.sealsOk (a : Arrival) (token : Token) : Bool :=
  a.record.client == some .switch
    && a.answer.any fun ans => ans.result == .ok && ans.payload.head? == some token

/-- R71: whether the trail holds a valid entry of a position without a ready report of the token in force. -/
def Arrival.unready (a : Arrival) (token : Token) (p : Nat) : Bool :=
  (a.trail.valid p).any fun f => !f.readyValid || f.token != token

/-- R69, R71: whether a trail in PREPARE calls for a resend of a transfer: a seal sent and not answered OK, or a readiness
lost. -/
def Transfer.failedBy (x : Transfer) (a : Arrival) (token : Token) : Bool :=
  (x.status == .sent && !a.sealsOk token) || (x.status == .ready && a.unready token x.position)

/-- R69, R71: a transfer record after a trail in PREPARE at which no limit is spent. -/
def Transfer.prepared (x : Transfer) (a : Arrival) (token : Token) : Transfer :=
  if x.failedBy a token then { x with status := .queued, nextIndex := 0, resends := x.resends + 1 }
  else if x.status = .sent then { x with status := .ready }
  else x

/-- R71: a transfer record after a trail in COUNTDOWN. -/
def Transfer.counted (x : Transfer) (a : Arrival) (token : Token) : Transfer :=
  if x.status = .ready ∧ a.unready token x.position = true then { x with missed := true } else x

/-- R78: a transfer record after a trail in SETTLE, with the epoch that is to be taken. -/
def Transfer.watched (x : Transfer) (a : Arrival) (epoch : Epoch) : Transfer :=
  match a.trail.valid x.position with
  | some f => { x with settled := f.epoch == epoch }
  | none => x

/-- The port of a request with one of the 21 codes of Table 10-4, and whether its body has the size of its code. -/
def requestOf : Instr → Option (Port × Bool)
  | .attach p b => some (p, b.isSized)
  | .detach p b => some (p, b.isSized)
  | .portStatus p b => some (p, b.isSized)
  | .draftOpen p b => some (p, b.isSized)
  | .draftClose p b => some (p, b.isSized)
  | .draftResize p b => some (p, b.isSized)
  | .draftSet p b => some (p, b.isSized)
  | .draftDrop p b => some (p, b.isSized)
  | .draftClear p b => some (p, b.isSized)
  | .draftView p b => some (p, b.isSized)
  | .commit p b => some (p, b.isSized)
  | .withdraw p b => some (p, b.isSized)
  | .streamInfo p b => some (p, b.isSized)
  | .listStreams p b => some (p, b.isSized)
  | .planInfo p b => some (p, b.isSized)
  | .chainInfo p b => some (p, b.isSized)
  | .chainRestart p b => some (p, b.isSized)
  | .remoteRead p b => some (p, b.isSized)
  | .remoteWrite p b => some (p, b.isSized)
  | .subscribe p b => some (p, b.isSized)
  | .readQueue p b => some (p, b.isSized)
  | .deviceReset | .cycleStart _ _ | .trailArrival _ _ | .receiveWindowClose _ | .frameError _ _ | .badRequest _ _ _
  | .responseRead _ _ | .leaseExpiry _ | .probeDue | .bringupSeek | .switchCycle | .batchFormation
  | .isolationRecovery _ | .breakDetected _ | .quietCountComplete _ | .resyncEntry | .prepareTimeout _ | .settleEnd _
  | .resetRelease => none

/-- Whether a request is taken while its port is DETACHED (Table 10-4). -/
def takenDetached : Instr → Bool
  | .attach _ _ => true
  | .portStatus _ _ => true
  | _ => false

/-- The port of a command that is a transaction of a host. -/
def hostPort : Instr → Option Port
  | .frameError p _ => some p
  | .badRequest p _ _ => some p
  | .responseRead p _ => some p
  | c => (requestOf c).map Prod.fst

end Sys2Proof.Machine
end

