-- ==== Sys2Proof/Certificates/Slice0/Obligations.lean ====
section
/-! DEFINITION. The statements about the head for the provers, each with the rule it formalises. -/

open Sys2Proof Sys2Proof.Machine

/-! ### The machine as a whole -/

/-- A step with a command waiting runs the front command on the head with the queue's rest; with none waiting the head
stays as it is (the model's choice, assumption 3). -/
def Obligations.StepRunsFrontCommand : Prop :=
  (∀ (c : Instr) (rest : List Instr) (s : State), step { s with pending := c :: rest } = exec c { s with pending := rest })
    ∧ ∀ s : State, s.pending = [] → step s = .next s

/-- No command of the table stops the head, and none touches the commands that wait. For the requests R173, R176 and Table
10-5 give each frame a response or a discard; that no command of the 40 rows stops the head is read from the manual as a
whole (assumption 32), and the queue of waiting commands is the model's own (assumptions 3 and 28). -/
def Obligations.EveryCommandCompletes : Prop :=
  ∀ (c : Instr) (s : State), ∃ t, exec c s = .next t ∧ t.pending = s.pending

/-- The values device reset leaves in every register group (R1, R42, R53, R59, R64, R86, R98, R101, R103, R104, R124, R135,
R153, R168, Tables 8-4 and 8-5). Of the Chain Manager's items the bring-up record stands although the chain is OFF (assumption
6), and what the rules name no reset value for is left unsaid here (assumption 21). -/
def Obligations.DeviceResetLeaves : Prop :=
  ∀ s : State, ∃ t, exec .deviceReset s = .next t
    ∧ (∀ h, t.stream h = { state := .free, owner := none, orphan := false, label := 0#16, source := 0, sinks := [], lanes := 0
                           down := none, up := none, change := .none
                           causes := { lost := false, isolated := false, resync := false }, mark := .none
                           placedEpoch := 0#16 })
    ∧ (∀ p, t.draft p = { state := .empty, entries := [], session := none, flags := none, ended := false })
    ∧ t.commits = []
    ∧ t.switch = { phase := .idle, epoch := 0#16, token := 0#8, plan := []
                   settings := { switchLead := 4, prepareTimeout := 96, retryLimit := 2, probeInterval := 64, eventFetch := true }
                   batch := none, transfers := [], queue := [], progress := 0, countdown := 0, settle := 0 }
    ∧ (∀ q, t.entry q = { state := .absent, identity := none, rejoined := false, quiet := 0, stale := false, outOfStep := false
                          attempts := 0, reported := none, hopScore := 0, hopState := .healthy, cleanRun := 0 })
    ∧ t.chain.state = .off ∧ t.chain.bringUp.map (fun b => (b.position, b.step)) = some (1, .wait)
    ∧ t.chain.breakCount = 0 ∧ t.chain.largestShort = 0 ∧ t.chain.probeCount = 0 ∧ t.chain.probePending = false
    ∧ t.chain.extendPending = none ∧ t.chain.resync = none ∧ t.chain.lastReach = 0 ∧ t.chain.lastMissing = false
    ∧ t.cycle.counter = 0#32 ∧ t.cycle.portEnabled = false ∧ t.cycle.gate = { down := [], up := [] }
    ∧ t.cycle.mute = { down := [], up := [] } ∧ t.arbiter.lastGranted = 3
    ∧ (∀ p, (t.port p).state = .detached ∧ (t.port p).session = 0 ∧ (t.port p).lease = 0 ∧ (t.port p).leaseCount = none
        ∧ (t.port p).endReason = .none ∧ (t.port p).slot = none ∧ (t.port p).overrun = false)
    ∧ (∀ p, (t.routerPort p).queue = [] ∧ (t.routerPort p).lost = 0 ∧ (t.routerPort p).noticeLoss = false
        ∧ (t.routerPort p).attention = false ∧ ∀ q, (t.routerPort p).subscriptions.get q = 0#8)
    ∧ (∀ p, t.remoteQueue p = []) ∧ t.remote.outstanding = none
    ∧ t.fetch = { wanted := [], lastFetched := 0, outstanding := none }

/-- The model's choice (assumption 2): while the reset line is low no other command has an effect, until RESET_RELEASE
returns the line high and changes nothing else. -/
def Obligations.ResetLineHoldsHead : Prop :=
  (∀ (c : Instr) (s : State), s.resetHigh = false → c ≠ .deviceReset → c ≠ .resetRelease → exec c s = .next s)
    ∧ ∀ s : State, exec .resetRelease s = .next { s with resetHigh := true }

/-- R86: the cycle counter increases by one at each cycle start, wrapping, and otherwise changes only at device reset; a
chain restart does not touch it. By the model's choice (assumptions 5 and 22) a row that is one act of a cycle start
(LEASE_EXPIRY, PROBE_DUE, BRINGUP_SEEK, SWITCH_CYCLE) begins that cycle start, the counter rising at the first such row, and
the CYCLE_START that follows makes the rest of it without raising the counter again. -/
def Obligations.CounterChangesOnlyAtCycleStart : Prop :=
  ∀ (c : Instr) (s t : State), exec c s = .next t →
    match c with
    | .deviceReset => t.cycle.counter = 0#32 ∧ t.cycle.begun = none
    | .cycleStart _ _ => s.resetHigh = true →
        t.cycle.counter = (if s.cycle.begun = none then s.cycle.counter + 1 else s.cycle.counter) ∧ t.cycle.begun = none
    | .leaseExpiry _ | .probeDue | .bringupSeek | .switchCycle =>
        (t.cycle.counter = s.cycle.counter ∧ t.cycle.begun.isSome = s.cycle.begun.isSome)
          ∨ (s.cycle.begun = none ∧ t.cycle.counter = s.cycle.counter + 1 ∧ t.cycle.begun.isSome = true)
    | _ => t.cycle.counter = s.cycle.counter ∧ t.cycle.begun = s.cycle.begun

/-- R64, R75: besides device reset, the active plan and the active epoch change only at a switch cycle that is due, where the
next plan of the batch becomes active, or at an accepted chain restart, where the plan is empty; the epoch then changes by
exactly one modulo 65,536. The switch cycle falls at its place among the acts of a CYCLE_START, or is the row SWITCH_CYCLE
(assumption 22). -/
def Obligations.EpochChangesOnlyBySwitchOrRestart : Prop :=
  ∀ (c : Instr) (s t : State), exec c s = .next t → c ≠ .deviceReset →
    (t.switch.plan = s.switch.plan ∧ t.switch.epoch = s.switch.epoch)
      ∨ (t.switch.epoch = s.switch.epoch + 1
          ∧ match c with
            | .cycleStart m o => ∃ before after b, s.openCycle.actsLeft o = before ++ .switch :: after
                ∧ (before.foldl (State.runAct m) s.openCycle).switch.phase = .countdown
                ∧ (before.foldl (State.runAct m) s.openCycle).switch.countdown = 0
                ∧ (before.foldl (State.runAct m) s.openCycle).switch.batch = some b ∧ t.switch.plan = b.nextPlan
            | .switchCycle => ∃ b, s.openCycle.switch.phase = .countdown ∧ s.openCycle.switch.countdown = 0
                ∧ s.openCycle.switch.batch = some b ∧ t.switch.plan = b.nextPlan
            | .chainRestart p _ => (s.port p).slot = none ∧ (t.port p).slot = some { status := .ok, body := .empty }
                ∧ t.switch.plan = []
            | _ => False)

/-! ### Frames on the host ports -/

/-- R173, R179, R180, Tables 11-3 and 11-4: the transaction of every well-formed command of a host is read back as that
command, with every field at every value. That a transaction without a byte is read as FRAME_ERROR is the model's choice
(assumption 19). -/
def Obligations.TransactionsDecodeBack : Prop :=
  ∀ (c : Instr) (p : Port) (bytes : List Byte), c.wellFormed = true → encode c = some (p, bytes) →
    decodeTransaction p bytes = c

/-- R173: whatever bytes a transaction holds, it is one command, and a well-formed one, at its own port. For a transaction
without a byte, which is FRAME_ERROR here, that is the model's choice (assumption 19). -/
def Obligations.EveryTransactionIsACommand : Prop :=
  ∀ (p : Port) (bytes : List Byte),
    (decodeTransaction p bytes).wellFormed = true ∧ hostPort (decodeTransaction p bytes) = some p

/-- R173 steps 1 to 5, R174: the frames that reach no owner. A request frame that finds the slot full is discarded whole and
sets the overrun flag, whatever it holds. With the slot empty, a bad frame is answered FRAME_ERROR, an unknown request code
BAD_REQUEST, a request at a DETACHED port that is not taken while DETACHED NOT_ATTACHED, and one that is taken but has a body
of the wrong size BAD_VALUE; nothing but the slot changes, the lease included. -/
def Obligations.FramesRefusedBeforeOwner : Prop :=
  ∀ (c : Instr) (p : Port) (s : State), s.resetHigh = true → hostPort c = some p → (∀ n, c ≠ .responseRead p n) →
    (∀ r, (s.port p).slot = some r → exec c s = .next (s.setPort p { s.port p with overrun := true }))
      ∧ ((s.port p).slot = none →
          ((∃ bytes, c = .frameError p bytes) → exec c s = .next (s.refused p .frameError))
          ∧ ((∃ code body, c = .badRequest p code body) → exec c s = .next (s.refused p .badRequest))
          ∧ (∀ sized, requestOf c = some (p, sized) →
              (s.attached p = false → takenDetached c = false → exec c s = .next (s.refused p .notAttached))
                ∧ ((s.attached p = true ∨ takenDetached c = true) → sized = false →
                    exec c s = .next (s.refused p .badValue))))

/-- R171, R174, R176: every request that finds the slot empty fills it with one response; a response other than OK and
ACCEPTED follows a request that changed nothing besides the slot; after OK or ACCEPTED on a port that is then ATTACHED
with a lease, the lease count is lease times 1,024. -/
def Obligations.RefusedRequestsChangeNothing : Prop :=
  ∀ (c : Instr) (p : Port) (sized : Bool) (s : State), s.listens p → requestOf c = some (p, sized) →
    ∃ t r, exec c s = .next t ∧ (t.port p).slot = some r ∧ (t.port p).overrun = (s.port p).overrun
      ∧ (r.status ≠ .ok → r.status ≠ .accepted → t = s.setPort p { s.port p with slot := some r })
      ∧ (r.status = .ok ∨ r.status = .accepted → t.attached p = true → 1 ≤ (t.port p).lease →
          (t.port p).leaseCount = some ((t.port p).lease * 1024))

/-- Table 10-1, note 1: a transaction at one port does not touch another port's context. -/
def Obligations.PortContextsAreSeparate : Prop :=
  ∀ (c : Instr) (p q : Port) (s t : State), hostPort c = some p → q ≠ p → exec c s = .next t → t.port q = s.port q

/-- R174, R180: a read that clocks out the whole frame gives it, empties the slot and clears the overrun flag; a read cut
short gives its first bytes and changes neither; a read of an empty slot gives the empty frame and changes neither. That a read
of more clocks than the frame holds gives the frame alone is the model's choice (assumption 20). -/
def Obligations.ResponseReadEmptiesSlot : Prop :=
  ∀ (p : Port) (n : Nat) (s : State), s.resetHigh = true →
    match (s.port p).slot with
    | some r =>
      exec (.responseRead p n) s = .next
        (if (r.bytes (s.port p).overrun).length ≤ n then
          s.setPort p { s.port p with slot := none, overrun := false, dataOut := r.bytes (s.port p).overrun }
        else s.setPort p { s.port p with dataOut := (r.bytes (s.port p).overrun).take n })
    | none =>
      exec (.responseRead p n) s = .next
        (s.setPort p { s.port p with dataOut := ([0xFF#8, 0x00#8, hostCrc [0xFF#8, 0x00#8]] : List Byte).take n })

/-! ### Sessions -/

/-- R169: ATTACH opens a session on a DETACHED port and is refused with ALREADY_ATTACHED on an ATTACHED one. -/
def Obligations.AttachOpensSession : Prop :=
  ∀ (p : Port) (b : Byte) (s : State), s.listens p →
    if s.attached p then exec (.attach p (.sized b)) s = .next (s.refused p .alreadyAttached)
    else
      let n := if 255 ≤ (s.port p).session then 1 else (s.port p).session + 1
      exec (.attach p (.sized b)) s = .next (s.setPort p
        { s.port p with
          state := .attached, session := n, lease := b.toNat
          leaseCount := if b.toNat = 0 then none else some (b.toNat * 1024)
          slot := some { status := .ok, body := .attach n b.toNat } })

/-- R167, R170 to R172: DETACH ends the session in its arrival event and is answered OK; the expiry of a lease whose count the
next decrease takes to 0 ends it with LEASE_EXPIRED at that cycle start; a batch that the release marks call for forms after the
session end. That the row LEASE_EXPIRY begins the cycle start it falls at (assumption 22), and that without its condition (a
longer count, none, a DETACHED port, or the decrease of that cycle start made already) it leaves the head as it is (assumption
5), is the model's choice. -/
def Obligations.SessionsEndOnDetachAndExpiry : Prop :=
  ∀ (p : Port) (s : State), s.resetHigh = true →
    ((s.port p).slot = none → s.attached p = true → exec (.detach p (.sized ())) s =
        .next (((s.endSession p .detach).accepted p { status := .ok, body := .empty }).formIfDue))
      ∧ (∀ n, s.attached p = true → (s.port p).leaseCount = some n → n ≤ 1 → s.cycle.made (.lease p) = false →
          exec (.leaseExpiry p) s = .next (((s.openCycle.endSession p .leaseExpired).formIfDue).noteAct (.lease p)))
      ∧ (s.cycle.made (.lease p) = true → exec (.leaseExpiry p) s = .next s)
      ∧ (∀ n, (s.port p).leaseCount = some n → 2 ≤ n → exec (.leaseExpiry p) s = .next s)
      ∧ ((s.port p).leaseCount = none → exec (.leaseExpiry p) s = .next s)
      ∧ (s.attached p = false → exec (.leaseExpiry p) s = .next s)

/-- R167, R13, R54, R147, R166, Table 10-2: what a session end settles in every block, and what it leaves. The streams of the
session become orphans, a LIVE or SUSPENDED one with a release mark; an OPEN or QUEUED draft is discarded, the streams of its
OPEN entries FREE, the queued commit out of the queue; an ACTIVE draft is marked ended. The other streams, drafts, commits,
queues and contexts stay. -/
def Obligations.SessionEndSettlesSession : Prop :=
  ∀ (p : Port) (why : EndReason) (s t : State), t = s.endSession p why →
    t.port p = { s.port p with state := .detached, leaseCount := none, endReason := why }
      ∧ (t.routerPort p).queue = [] ∧ (∀ q, (t.routerPort p).subscriptions.get q = 0#8) ∧ (t.routerPort p).lost = 0
      ∧ (t.routerPort p).noticeLoss = false ∧ (t.routerPort p).attention = false
      ∧ t.remoteQueue p = []
      ∧ t.remote.outstanding = s.remote.outstanding.map (fun o => if o.port = p then { o with discarded := true } else o)
      ∧ (∀ h, ((s.draft p).state = .opened ∨ (s.draft p).state = .queued) →
          (∃ e ∈ (s.draft p).entries, e.opens? = some h) → t.stream h = Stream.free)
      ∧ (∀ h, ((s.draft p).state = .opened ∨ (s.draft p).state = .queued →
            ∀ e ∈ (s.draft p).entries, e.opens? ≠ some h) →
          t.stream h =
            if (s.stream h).state ≠ .free ∧ (s.stream h).owner = some (p, (s.port p).session) ∧ (s.stream h).orphan = false then
              { s.stream h with
                orphan := true
                mark := if ((s.stream h).state = .live ∨ (s.stream h).state = .suspended) ∧ (s.stream h).mark = .none then
                    .released else (s.stream h).mark }
            else s.stream h)
      ∧ ((s.draft p).state = .opened ∨ (s.draft p).state = .queued → t.draft p = Draft.empty)
      ∧ ((s.draft p).state = .empty → t.draft p = s.draft p)
      ∧ ((s.draft p).state = .active → t.draft p = { s.draft p with ended := true })
      ∧ t.commits = (if (s.draft p).state = .queued then s.commits.filter (fun c => c.port != p) else s.commits)
      ∧ (∀ q, q ≠ p → t.port q = s.port q ∧ t.routerPort q = s.routerPort q ∧ t.remoteQueue q = s.remoteQueue q
          ∧ t.draft q = s.draft q)
      ∧ t.switch = s.switch ∧ t.chain = s.chain ∧ t.cycle = s.cycle ∧ t.arbiter = s.arbiter ∧ t.fetch = s.fetch

/-- R171: at a cycle start the lease count of every ATTACHED port with a count above 1 decreases by one, and the rest of
its context stays. Where the row LEASE_EXPIRY has made the port's decrease of that cycle start already, so that the port is in
a new session, the CYCLE_START makes none (the model's choice, assumption 22). -/
def Obligations.LeaseCountsDownAtCycleStart : Prop :=
  ∀ (m : Tab Sample 64) (o : List CycleAct) (p : Port) (n : Nat) (s : State), s.resetHigh = true → s.attached p = true →
    (s.port p).leaseCount = some n → 2 ≤ n →
    ∃ t, exec (.cycleStart m o) s = .next t
      ∧ t.port p = if s.cycle.made (.lease p) = true then s.port p else { s.port p with leaseCount := some (n - 1) }

/-- R178: PORT_STATUS reports the values held, the lease after its own renewal. -/
def Obligations.PortStatusReportsPort : Prop :=
  ∀ (p : Port) (s : State), s.listens p →
    exec (.portStatus p (.sized ())) s = .next (s.accepted p
      { status := .ok
        body := .portStatus
          { state := (s.port p).state, session := (s.port p).session, lease := (s.port p).lease
            leaseRemaining :=
              if s.attached p = true ∧ 1 ≤ (s.port p).lease then some ((s.port p).lease * 1024) else (s.port p).leaseCount
            endReason := (s.port p).endReason, queueLength := (s.routerPort p).queue.length
            eventCount := (s.routerPort p).queue.countP QueueEntry.isEvent, lost := (s.routerPort p).lost
            noticeLoss := (s.routerPort p).noticeLoss
            remoteHeld := (s.remoteQueue p).length + (match s.remote.outstanding with
              | some o => if o.port = p ∧ o.discarded = false then 1 else 0
              | none => 0)
            draft := if (s.draft p).ended then .active else (s.draft p).state } })

/-! ### Drafts and commits -/

/-- R3, R44, R45: an accepted DRAFT_OPEN fills the lowest FREE record that the draft does not name, STAGED, and appends its
OPEN entry; nothing else changes but the response and the lease. -/
def Obligations.DraftOpenStagesStream : Prop :=
  ∀ (p : Port) (a : OpenArgs) (h : Handle) (s : State), s.serves p →
    a.source.toNat ≤ 15 → 1 ≤ a.sinkCount.toNat → a.sinkCount.toNat ≤ 4 → (∀ k ∈ sinksGiven a, k ≤ 15) →
    (sinksGiven a).Nodup → a.source.toNat ∉ sinksGiven a → 1 ≤ a.lanes.toNat → a.lanes.toNat ≤ 16 →
    (s.draft p).state = .empty ∨ (s.draft p).state = .opened → (s.draft p).entries.length < 8 →
    (∀ q ∈ a.source.toNat :: sinksGiven a, q ≠ 0 → (s.entry q).state = .ready) →
    (s.stream h).state = .free → (∀ e ∈ (s.draft p).entries, e.handle? ≠ some h) →
    (∀ k, k < h → (s.stream k).state ≠ .free ∨ ∃ e ∈ (s.draft p).entries, e.handle? = some k) →
    exec (.draftOpen p (.sized a)) s = .next
      (((s.setStream h
          { state := .staged, owner := some (p, (s.port p).session), orphan := false, label := a.label
            source := a.source.toNat, sinks := ascending (sinksGiven a), lanes := a.lanes.toNat, down := none, up := none
            change := .none, causes := s.chain.causes a.source.toNat (ascending (sinksGiven a)), mark := .none
            placedEpoch := 0#16 }).setDraft p
          { s.draft p with
            entries := (s.draft p).entries ++ [.opening h a.source.toNat (ascending (sinksGiven a)) a.lanes.toNat a.label]
            state := .opened
            session := if (s.draft p).state = .empty then some (s.port p).session else (s.draft p).session }).accepted p
        { status := .ok, body := .opened (s.draft p).entries.length h })

/-- R44, R46: on a draft that can take an entry, a DRAFT_CLOSE, and a DRAFT_RESIZE with lanes 1 to 16, of a handle that stands in
an entry of the draft is refused with DUPLICATE; of a FREE stream with NOT_FOUND; of a stream that does not belong to the
session, an orphan included, with NOT_OWNER; of one that is not LIVE or SUSPENDED, or carries a mark, with NOT_FOUND. Any other
DRAFT_CLOSE, and a DRAFT_RESIZE to another lane count, is appended and answered with the index, and nothing else changes but the
lease. A handle or a lane count out of range, or the lanes the stream has, is BAD_VALUE. -/
def Obligations.DraftCloseAndResizeStage : Prop :=
  ∀ (p : Port) (b : Byte) (a : ResizeArgs) (s : State), s.serves p →
    (32 ≤ b.toNat → exec (.draftClose p (.sized b)) s = .next (s.refused p .badValue))
      ∧ (32 ≤ a.handle.toNat ∨ a.lanes.toNat = 0 ∨ 17 ≤ a.lanes.toNat →
          exec (.draftResize p (.sized a)) s = .next (s.refused p .badValue))
      ∧ ∀ h : Handle, b.toNat = h.val → a.handle.toNat = h.val → 1 ≤ a.lanes.toNat → a.lanes.toNat ≤ 16 →
        (s.draft p).state = .empty ∨ (s.draft p).state = .opened → (s.draft p).entries.length < 8 →
        ((∃ e ∈ (s.draft p).entries, e.handle? = some h) →
            exec (.draftClose p (.sized b)) s = .next (s.refused p .duplicate)
              ∧ exec (.draftResize p (.sized a)) s = .next (s.refused p .duplicate))
          ∧ ((∀ e ∈ (s.draft p).entries, e.handle? ≠ some h) →
              ((s.stream h).state = .free →
                exec (.draftClose p (.sized b)) s = .next (s.refused p .notFound)
                  ∧ exec (.draftResize p (.sized a)) s = .next (s.refused p .notFound))
              ∧ ((s.stream h).state ≠ .free →
                  (s.stream h).owner ≠ some (p, (s.port p).session) ∨ (s.stream h).orphan = true →
                  exec (.draftClose p (.sized b)) s = .next (s.refused p .notOwner)
                    ∧ exec (.draftResize p (.sized a)) s = .next (s.refused p .notOwner))
              ∧ ((s.stream h).owner = some (p, (s.port p).session) → (s.stream h).orphan = false →
                  ((s.stream h).state = .staged ∨ (s.stream h).state = .switchingIn ∨ (s.stream h).state = .switchingOut
                      ∨ ((s.stream h).state ≠ .free ∧ (s.stream h).mark ≠ .none) →
                    exec (.draftClose p (.sized b)) s = .next (s.refused p .notFound)
                      ∧ exec (.draftResize p (.sized a)) s = .next (s.refused p .notFound))
                  ∧ ((s.stream h).state = .live ∨ (s.stream h).state = .suspended → (s.stream h).mark = .none →
                      exec (.draftClose p (.sized b)) s = .next
                        ((s.setDraft p
                            { s.draft p with
                              entries := (s.draft p).entries ++ [.closing h], state := .opened
                              session := if (s.draft p).state = .empty then some (s.port p).session
                                else (s.draft p).session }).accepted p
                          { status := .ok, body := .index (s.draft p).entries.length })
                        ∧ (a.lanes.toNat ≠ (s.stream h).lanes →
                            exec (.draftResize p (.sized a)) s = .next
                              ((s.setDraft p
                                  { s.draft p with
                                    entries := (s.draft p).entries ++ [.resizing h a.lanes.toNat], state := .opened
                                    session := if (s.draft p).state = .empty then some (s.port p).session
                                      else (s.draft p).session }).accepted p
                                { status := .ok, body := .index (s.draft p).entries.length }))
                        ∧ (a.lanes.toNat = (s.stream h).lanes →
                            exec (.draftResize p (.sized a)) s = .next (s.refused p .badValue)))))

/-- R47: a DRAFT_SET is refused with BAD_VALUE when its setting is none of the five or its value lies outside the range of
Table 3-6; it has no checks at order 4, so that on a draft that can take an entry every other DRAFT_SET is staged, the
setting's current value or not. -/
def Obligations.DraftSetStagesSetting : Prop :=
  ∀ (p : Port) (a : SetArgs) (s : State), s.serves p →
    ((∀ k v, settingSetOf a ≠ some (k, v)) → exec (.draftSet p (.sized a)) s = .next (s.refused p .badValue))
      ∧ (settingSetOf a = none ↔ ¬(
          (a.setting.toNat = 1 ∧ 2 ≤ a.value.toNat ∧ a.value.toNat ≤ 15)
            ∨ (a.setting.toNat = 2 ∧ 32 ≤ a.value.toNat ∧ a.value.toNat ≤ 255)
            ∨ (a.setting.toNat = 3 ∧ a.value.toNat ≤ 3)
            ∨ (a.setting.toNat = 4 ∧ 16 ≤ a.value.toNat ∧ a.value.toNat ≤ 255)
            ∨ (a.setting.toNat = 5 ∧ a.value.toNat ≤ 1)))
      ∧ (∀ k v, settingSetOf a = some (k, v) → v = a.value.toNat ∧ ((s.draft p).state = .empty ∨ (s.draft p).state = .opened →
          (s.draft p).entries.length < 8 →
          exec (.draftSet p (.sized a)) s = .next
            ((s.setDraft p
                { s.draft p with
                  entries := (s.draft p).entries ++ [.setting k v], state := .opened
                  session := if (s.draft p).state = .empty then some (s.port p).session
                    else (s.draft p).session }).accepted p
              { status := .ok, body := .index (s.draft p).entries.length })))

/-- R44, Table 3-4: with its field values in range, every staging request on a QUEUED or ACTIVE draft is refused with
DRAFT_BUSY, and on an OPEN draft of 8 entries with DRAFT_FULL. -/
def Obligations.ClosedDraftsRefuseStaging : Prop :=
  ∀ (p : Port) (o : OpenArgs) (b : Byte) (r : ResizeArgs) (x : SetArgs) (c : Instr) (s : State), s.serves p →
    (openOf o).isSome = true → b.toNat < 32 → r.handle.toNat < 32 → 1 ≤ r.lanes.toNat → r.lanes.toNat ≤ 16 →
    (settingSetOf x).isSome = true →
    c ∈ [Instr.draftOpen p (.sized o), .draftClose p (.sized b), .draftResize p (.sized r), .draftSet p (.sized x)] →
    ((s.draft p).state = .queued ∨ (s.draft p).state = .active → exec c s = .next (s.refused p .draftBusy))
      ∧ ((s.draft p).state = .opened → 8 ≤ (s.draft p).entries.length → exec c s = .next (s.refused p .draftFull))

/-- R48: DRAFT_DROP with an index above 7 is BAD_VALUE, on a QUEUED or ACTIVE draft DRAFT_BUSY, at or beyond the entry count
NOT_FOUND; otherwise the entry at that index goes, the later ones keeping their order, the stream of an OPEN entry is FREE, a
draft left without entries EMPTY, the status OK, and nothing else changes but the lease. -/
def Obligations.DraftDropRemovesEntry : Prop :=
  ∀ (p : Port) (b : Byte) (s : State), s.serves p →
    (8 ≤ b.toNat → exec (.draftDrop p (.sized b)) s = .next (s.refused p .badValue))
      ∧ (b.toNat ≤ 7 → (s.draft p).state = .queued ∨ (s.draft p).state = .active →
          exec (.draftDrop p (.sized b)) s = .next (s.refused p .draftBusy))
      ∧ (b.toNat ≤ 7 → (s.draft p).state = .empty ∨ (s.draft p).state = .opened →
          (s.draft p).entries.length ≤ b.toNat → exec (.draftDrop p (.sized b)) s = .next (s.refused p .notFound))
      ∧ (∀ e, b.toNat ≤ 7 → (s.draft p).state = .empty ∨ (s.draft p).state = .opened →
          (s.draft p).entries[b.toNat]? = some e →
          exec (.draftDrop p (.sized b)) s = .next
            (((match e.opens? with
                | some h => s.setStream h Stream.free
                | none => s).setDraft p
                (if (s.draft p).entries.eraseIdx b.toNat = [] then Draft.empty
                 else { s.draft p with entries := (s.draft p).entries.eraseIdx b.toNat })).accepted p
              { status := .ok, body := .empty }))

/-- R49: DRAFT_CLEAR on a QUEUED or ACTIVE draft is DRAFT_BUSY; on an EMPTY draft it is OK and changes nothing but the lease;
on an OPEN draft the streams of its OPEN entries are FREE, the draft EMPTY, the status OK, and nothing else changes but the
lease. -/
def Obligations.DraftClearEmptiesDraft : Prop :=
  ∀ (p : Port) (s : State), s.serves p →
    ((s.draft p).state = .queued ∨ (s.draft p).state = .active →
        exec (.draftClear p (.sized ())) s = .next (s.refused p .draftBusy))
      ∧ ((s.draft p).state = .empty →
          exec (.draftClear p (.sized ())) s = .next (s.accepted p { status := .ok, body := .empty }))
      ∧ ((s.draft p).state = .opened → ∃ t, exec (.draftClear p (.sized ())) s = .next t
          ∧ t.draft p = Draft.empty ∧ (∀ q, q ≠ p → t.draft q = s.draft q)
          ∧ (∀ h, t.stream h =
              if (s.draft p).entries.any (fun e => e.opens? == some h) then Stream.free else s.stream h)
          ∧ (t.port p).slot = some { status := .ok, body := .empty }
          ∧ { t with streams := s.streams, drafts := s.drafts } = s.accepted p { status := .ok, body := .empty })

/-- R50: DRAFT_VIEW reports the state, the count, the flags while QUEUED or ACTIVE, the place in the commit queue while QUEUED, 1
the oldest, and up to two entries from the first index, and changes nothing but the lease; a draft whose session has ended shows
ACTIVE without entries. A first index above 7 is refused with BAD_VALUE. -/
def Obligations.DraftViewShowsDraft : Prop :=
  ∀ (p : Port) (b : Byte) (s : State), s.serves p →
    (8 ≤ b.toNat → exec (.draftView p (.sized b)) s = .next (s.refused p .badValue))
      ∧ (b.toNat ≤ 7 → ∃ v, exec (.draftView p (.sized b)) s = .next (s.accepted p { status := .ok, body := .draftView v })
          ∧ ((s.draft p).ended = true → v.state = .active ∧ v.count = 0 ∧ v.entries = [] ∧ v.next = none)
          ∧ ((s.draft p).ended = false → v.state = (s.draft p).state ∧ v.count = (s.draft p).entries.length
              ∧ v.entries.map Prod.snd = ((s.draft p).entries.drop b.toNat).take 2
              ∧ (∀ x ∈ v.entries, (s.draft p).entries[x.1]? = some x.2)
              ∧ v.next = if b.toNat + 2 < (s.draft p).entries.length then some (b.toNat + 2) else none)
          ∧ (v.flags = if (s.draft p).state = .queued ∨ (s.draft p).state = .active then (s.draft p).flags else none)
          ∧ (∀ before c after, (s.draft p).state = .queued → s.commits = before ++ c :: after → c.port = p →
              (∀ x ∈ before, x.port ≠ p) → v.place = some (before.length + 1))
          ∧ ((s.draft p).state ≠ .queued → v.place = none))

/-- R51, R56: COMMIT of an OPEN draft makes it QUEUED, appends its commit entry and is answered ACCEPTED; the batch it makes
due forms after the response, and none forms while the Switch Engine is busy. With flags other than none and REPACK it is refused
with BAD_VALUE, of an EMPTY draft with NOT_FOUND, of a QUEUED or ACTIVE one with DRAFT_BUSY. -/
def Obligations.CommitJoinsQueue : Prop :=
  ∀ (p : Port) (b : Byte) (s : State), s.serves p →
    (∀ (f : CommitFlags) (u : State), (b.toNat = 0 ∧ f = .none) ∨ (b.toNat = 1 ∧ f = .repack) → (s.draft p).state = .opened →
        u = ((s.setDraft p { s.draft p with state := .queued, flags := some f }).setCommits
              (s.commits ++ [{ port := p, session := (s.port p).session, flags := f }])).accepted p
              { status := .accepted, body := .empty } →
        exec (.commit p (.sized b)) s = .next u.formIfDue
          ∧ (s.switch.phase ≠ .idle → exec (.commit p (.sized b)) s = .next u))
      ∧ (2 ≤ b.toNat → exec (.commit p (.sized b)) s = .next (s.refused p .badValue))
      ∧ (b.toNat ≤ 1 → (s.draft p).state = .empty → exec (.commit p (.sized b)) s = .next (s.refused p .notFound))
      ∧ (b.toNat ≤ 1 → (s.draft p).state = .queued ∨ (s.draft p).state = .active →
          exec (.commit p (.sized b)) s = .next (s.refused p .draftBusy))

/-- R52: WITHDRAW takes a queued commit back: its entry leaves the queue, the others keep their order, the draft is OPEN
again with its entries; with the draft ACTIVE it is refused with SWITCH_BUSY, with the draft EMPTY or OPEN with NOT_FOUND. -/
def Obligations.WithdrawTakesCommitBack : Prop :=
  ∀ (p : Port) (s : State), s.serves p →
    match (s.draft p).state with
    | .queued => exec (.withdraw p (.sized ())) s = .next
        (((s.setCommits (s.commits.filter fun c => c.port != p)).setDraft p
            { s.draft p with state := .opened, flags := none }).accepted p { status := .ok, body := .empty })
    | .active => exec (.withdraw p (.sized ())) s = .next (s.refused p .switchBusy)
    | .empty => exec (.withdraw p (.sized ())) s = .next (s.refused p .notFound)
    | .opened => exec (.withdraw p (.sized ())) s = .next (s.refused p .notFound)

/-! ### Queries -/

/-- R19, R85, R120: STREAM_INFO returns the record of a handle 0 to 31 as it stands; PLAN_INFO the values held, its countdown 0
outside COUNTDOWN, its affected count absent in IDLE, its ready count present in PREPARE only; CHAIN_INFO the chain summary
for position 0 and the entry for positions 1 to 15. Out-of-range fields are refused with BAD_VALUE. Nothing else changes but
the lease. -/
def Obligations.QueriesReportRegisters : Prop :=
  ∀ (p : Port) (b : Byte) (s : State), s.serves p →
    (∀ h : Handle, b.toNat = h.val →
      exec (.streamInfo p (.sized b)) s = .next (s.accepted p { status := .ok, body := .stream h (s.stream h) }))
      ∧ (32 ≤ b.toNat → exec (.streamInfo p (.sized b)) s = .next (s.refused p .badValue))
      ∧ exec (.planInfo p (.sized ())) s = .next (s.accepted p
          { status := .ok
            body := .plan
              { epoch := s.switch.epoch, phase := s.switch.phase, token := s.switch.token
                countdown := if s.switch.phase = .countdown then s.switch.countdown else 0
                downFree := freeCount s.switch.plan .down, upFree := freeCount s.switch.plan .up
                queueLength := s.commits.length
                affected := if s.switch.phase = .idle then none else s.switch.batch.map fun b => b.affected.length
                ready := if s.switch.phase = .prepare then some (s.switch.transfers.countP fun t => t.status == .ready)
                  else none } })
      ∧ (b.toNat = 0 → exec (.chainInfo p (.sized b)) s = .next (s.accepted p
          { status := .ok
            body := .summary
              { state := s.chain.state, endM := s.chain.endM
                bringUp := if s.chain.state = .bringUp then s.chain.bringUp.map BringUp.position else none
                lastReach := s.chain.lastReach, lastMissing := s.chain.lastMissing, breakCount := s.chain.breakCount
                resync := s.chain.resync.map ResyncTransfer.position } }))
      ∧ (1 ≤ b.toNat → b.toNat ≤ 15 → exec (.chainInfo p (.sized b)) s = .next (s.accepted p
          { status := .ok, body := .entry b.toNat (s.entry b.toNat) }))
      ∧ (16 ≤ b.toNat → exec (.chainInfo p (.sized b)) s = .next (s.refused p .badValue))

/-- R20: LIST_STREAMS returns up to 8 of the non-FREE streams at or above the first handle, ascending and without gaps, and
the handle of the ninth. -/
def Obligations.ListStreamsWalksTable : Prop :=
  ∀ (p : Port) (b : Byte) (first : Handle) (s : State), s.serves p → b.toNat = first.val →
    ∃ items next, exec (.listStreams p (.sized b)) s = .next (s.accepted p { status := .ok, body := .streams items next })
      ∧ items.length ≤ 8 ∧ (items.map ListItem.handle).Pairwise (fun x y => x < y)
      ∧ (∀ i ∈ items, first ≤ i.handle ∧ i.state = (s.stream i.handle).state ∧ i.state ≠ .free
          ∧ i.ownerPort = (s.stream i.handle).owner.map Prod.fst ∧ i.orphan = (s.stream i.handle).orphan)
      ∧ (∀ h, first ≤ h → (s.stream h).state ≠ .free →
          h ∈ items.map ListItem.handle ∨ ∃ k, next = some k ∧ k ≤ h)
      ∧ (∀ k, next = some k → (s.stream k).state ≠ .free ∧ items.length = 8 ∧ ∀ i ∈ items, i.handle < k)

/-! ### Remote access, subscriptions, port queues -/

/-- R140: an in-range REMOTE_READ or REMOTE_WRITE to a READY position, or a REMOTE_WRITE to ALL with some position READY, joins
the tail of its port's queue while the port holds fewer than 4 requests and is refused with QUEUE_FULL at 4; to a position
that is not READY, or to ALL with no position READY, it is refused with TARGET_UNREACHABLE. A write that touches E0h to FFh is
refused with PROTECTED, whatever its target. -/
def Obligations.RemoteRequestsAreQueued : Prop :=
  ∀ (p : Port) (a : ReadArgs) (w : WriteArgs) (s : State), s.serves p →
    (1 ≤ a.target.toNat → a.target.toNat ≤ 15 → 1 ≤ a.length.toNat → a.length.toNat ≤ 4 →
      a.address.toNat + a.length.toNat ≤ 256 →
      ((s.entry a.target.toNat).state ≠ .ready →
        exec (.remoteRead p (.sized a)) s = .next (s.refused p .targetUnreachable))
        ∧ ((s.entry a.target.toNat).state = .ready → 4 ≤ s.remoteHeld p →
            exec (.remoteRead p (.sized a)) s = .next (s.refused p .queueFull))
        ∧ ((s.entry a.target.toNat).state = .ready → s.remoteHeld p < 4 →
            exec (.remoteRead p (.sized a)) s = .next
              ((s.setRemoteQueue p (s.remoteQueue p ++
                  [{ kind := .read, target := some a.target.toNat, address := a.address.toNat, length := a.length.toNat
                     data := [], tag := a.tag, session := (s.port p).session, retries := 0 }])).accepted p
                { status := .accepted, body := .empty })))
      ∧ ((1 ≤ w.target.toNat ∧ w.target.toNat ≤ 15) ∨ w.target = 0xFF#8 → 1 ≤ w.length.toNat → w.length.toNat ≤ 4 →
          w.address.toNat + w.length.toNat ≤ 256 → w.data.length = w.length.toNat →
          (0xE0 < w.address.toNat + w.length.toNat →
            exec (.remoteWrite p (.sized w)) s = .next (s.refused p .writeProtected))
            ∧ (w.address.toNat + w.length.toNat ≤ 0xE0 → w.target.toNat ≤ 15 → (s.entry w.target.toNat).state ≠ .ready →
                exec (.remoteWrite p (.sized w)) s = .next (s.refused p .targetUnreachable))
            ∧ (w.address.toNat + w.length.toNat ≤ 0xE0 → w.target = 0xFF#8 → (∀ q, (s.entry q).state ≠ .ready) →
                exec (.remoteWrite p (.sized w)) s = .next (s.refused p .targetUnreachable))
            ∧ (w.address.toNat + w.length.toNat ≤ 0xE0 →
                (w.target.toNat ≤ 15 ∧ (s.entry w.target.toNat).state = .ready)
                  ∨ (w.target = 0xFF#8 ∧ ∃ q, (s.entry q).state = .ready) →
                4 ≤ s.remoteHeld p → exec (.remoteWrite p (.sized w)) s = .next (s.refused p .queueFull))
            ∧ (w.address.toNat + w.length.toNat ≤ 0xE0 → w.target.toNat ≤ 15 → (s.entry w.target.toNat).state = .ready →
                s.remoteHeld p < 4 →
                exec (.remoteWrite p (.sized w)) s = .next
                  ((s.setRemoteQueue p (s.remoteQueue p ++
                      [{ kind := .write, target := some w.target.toNat, address := w.address.toNat
                         length := w.length.toNat, data := w.data, tag := w.tag, session := (s.port p).session
                         retries := 0 }])).accepted p
                    { status := .accepted, body := .empty }))
            ∧ (w.address.toNat + w.length.toNat ≤ 0xE0 → w.target = 0xFF#8 → (∃ q, (s.entry q).state = .ready) →
                s.remoteHeld p < 4 →
                exec (.remoteWrite p (.sized w)) s = .next
                  ((s.setRemoteQueue p (s.remoteQueue p ++
                      [{ kind := .writeAll, target := none, address := w.address.toNat, length := w.length.toNat
                         data := w.data, tag := w.tag, session := (s.port p).session, retries := 0 }])).accepted p
                    { status := .accepted, body := .empty })))

/-- R164: SUBSCRIBE replaces the port's subscription set of one position and leaves the others; a position above 15 is
refused with BAD_VALUE. -/
def Obligations.SubscribeReplacesSet : Prop :=
  ∀ (p : Port) (a : SubscribeArgs) (s : State), s.serves p →
    (16 ≤ a.position.toNat → exec (.subscribe p (.sized a)) s = .next (s.refused p .badValue))
      ∧ (a.position.toNat ≤ 15 → ∃ subs : Tab Byte 16,
          exec (.subscribe p (.sized a)) s = .next
            ((s.setRouter p { s.routerPort p with subscriptions := subs }).accepted p { status := .ok, body := .empty })
          ∧ ∀ q : Fin 16, subs.get q = if q.val = a.position.toNat then a.classes else (s.routerPort p).subscriptions.get q)

/-- R162, R165: READ_QUEUE takes the n oldest entries, returns and clears the lost-event counter and the notice-loss flag,
and releases the attention line when it removes the last entries. -/
def Obligations.ReadQueueTakesOldest : Prop :=
  ∀ (p : Port) (b : Byte) (s : State), s.serves p →
    (b.toNat = 0 ∨ 5 ≤ b.toNat → exec (.readQueue p (.sized b)) s = .next (s.refused p .badValue))
      ∧ (1 ≤ b.toNat → b.toNat ≤ 4 →
          exec (.readQueue p (.sized b)) s = .next
            ((s.setRouter p
                { s.routerPort p with
                  queue := (s.routerPort p).queue.drop b.toNat, lost := 0, noticeLoss := false
                  attention := (s.routerPort p).attention && decide (b.toNat < (s.routerPort p).queue.length) }).accepted p
              { status := .ok
                body := .queue ((s.routerPort p).queue.take b.toNat) ((s.routerPort p).queue.length - b.toNat)
                  (s.routerPort p).lost (s.routerPort p).noticeLoss }))

/-- R159, whole: an event copy arriving at a port's queue is appended with fewer than 16 entries and fewer than 12 events,
and otherwise dropped and counted, to at most 255; a dropped event leaves the queue and the attention line. -/
def Obligations.EventPlacement : Prop :=
  ∀ (e : QueueEntry) (r : RouterPort), e.isEvent = true →
    (r.queue.length < 16 → r.queue.countP QueueEntry.isEvent < 12 →
        (r.putEvent e).queue = r.queue ++ [e] ∧ (r.putEvent e).lost = r.lost)
      ∧ (12 ≤ r.queue.countP QueueEntry.isEvent ∨ 16 ≤ r.queue.length →
          (r.putEvent e).queue = r.queue ∧ (r.putEvent e).attention = r.attention
            ∧ (r.putEvent e).lost = min 255 (r.lost + 1))
      ∧ (r.putEvent e).noticeLoss = r.noticeLoss ∧ (r.putEvent e).subscriptions = r.subscriptions

/-- R160: a notice arriving at a port's queue is appended below 16 entries; at 16 it displaces the newest event, the others
keeping their order, and counts it; at 16 notices it is dropped and the notice-loss flag set. -/
def Obligations.NoticePlacement : Prop :=
  ∀ (e : QueueEntry) (r : RouterPort), e.isEvent = false →
    (r.queue.length < 16 → (r.putNotice e).queue = r.queue ++ [e] ∧ (r.putNotice e).lost = r.lost
        ∧ (r.putNotice e).noticeLoss = r.noticeLoss)
      ∧ (∀ before newest after, r.queue.length = 16 → r.queue = before ++ newest :: after → newest.isEvent = true →
          (∀ x ∈ after, x.isEvent = false) →
          (r.putNotice e).queue = before ++ after ++ [e] ∧ (r.putNotice e).lost = min 255 (r.lost + 1)
            ∧ (r.putNotice e).noticeLoss = r.noticeLoss)
      ∧ (r.queue.length = 16 → (∀ x ∈ r.queue, x.isEvent = false) →
          (r.putNotice e).queue = r.queue ∧ (r.putNotice e).lost = r.lost ∧ (r.putNotice e).noticeLoss = true
            ∧ (r.putNotice e).attention = r.attention)

/-! ### The cycle -/

/-- R17, R66, R86, R87, R95, R98, R100, R101: CYCLE_START: the counter increases by one, the lead block carries it modulo 65,536
with the epoch of the Switch Engine, the token and, in COUNTDOWN, the countdown as they stand when it is built, and the message
of the slot; the gate is that of the active plan, and of it the lanes of the streams that have a cause as the lead block is
built are muted; the window opens, the chain is OFF no more, the down pass carries the gated lanes that are not muted, and the
media frame presents the up lanes of the cycle before under that cycle's gate and mute set. `v` is the head as the lead block is
built, after the acts of the cycle start that come before it. The model's choices: a window still open closes first, without an
up pass, so that the media frame is silent (assumption 7); a row that is one act of the cycle start may have begun it, and the
CYCLE_START then makes the rest (assumption 22). The lead block is never made ahead of its CYCLE_START: it is not after reset,
and every command keeps it so. -/
def Obligations.CycleStartBeginsCycle : Prop :=
  (State.reset.cycle.made .lead = false
    ∧ ∀ (c : Instr) (s t : State), s.cycle.made .lead = false → exec c s = .next t → t.cycle.made .lead = false)
  ∧ ∀ (m : Tab Sample 64) (o : List CycleAct) (s : State), s.resetHigh = true →
    (s.cycle.begun = none → ∃ u, exec (.receiveWindowClose TrailOrder.default) s = .next u
        ∧ s.openCycle = u.setCycle { u.cycle with counter := u.cycle.counter + 1, begun := some [] })
      ∧ (s.cycle.begun ≠ none → s.openCycle = s)
      ∧ (s.cycle.made .lead = false → ∃ t b before after v, exec (.cycleStart m o) s = .next t
        ∧ s.openCycle.actsLeft o = before ++ .lead :: after ∧ v = before.foldl (State.runAct m) s.openCycle
        ∧ t.cycle.counter = s.openCycle.cycle.counter ∧ t.cycle.begun = none
        ∧ t.cycle.lead = some b ∧ b.cycle = t.cycle.counter.setWidth 16 ∧ b.epoch = t.switch.epoch ∧ b.token = v.switch.token
        ∧ b.countdown = (if v.switch.phase = .countdown then v.switch.countdown else 0)
        ∧ b.msg = t.cycle.msg ∧ t.cycle.window = true ∧ t.chain.state ≠ .off
        ∧ t.cycle.gate = gateOf t.switch.plan
        ∧ (∀ i, t.cycle.mute.down.contains i = (t.cycle.gate.down.contains i && v.mutes .down i))
        ∧ (∀ i, t.cycle.mute.up.contains i = (t.cycle.gate.up.contains i && v.mutes .up i))
        ∧ (∀ i, t.cycle.downLanes.get i =
            if t.cycle.gate.down.contains i.val = true ∧ t.cycle.mute.down.contains i.val = false then m.get i else 0#16)
        ∧ (s.cycle.window = false ∨ s.cycle.begun ≠ none → ∀ i, t.cycle.mediaOut.get i =
            if s.cycle.gate.up.contains i.val = true ∧ s.cycle.mute.up.contains i.val = false then s.cycle.upLanes.get i
            else 0#16)
        ∧ (s.cycle.window = true → s.cycle.begun = none → ∀ i, t.cycle.mediaOut.get i = 0#16))

/-- R88, R95, R96, R109: a trail arrival within the window: the record of the cycle is discarded, the window is done, the up
lanes are kept for the next frame, and the chain's last reach is the number of entries, at most 15. The window closing without
a complete up pass is the trail arrival of the cycle: the trail missing, reach 0, every up lane 0. The rest of the Cycle
Engine, the ports and the Arbiter stay. The model's choices: outside the window neither changes anything (assumption 8), and the
trail handed over after an accepted restart in the same cycle, read to no effect by R109, sets last reach and last trail missing
as any other does (assumption 33). -/
def Obligations.TrailArrivalIsTaken : Prop :=
  ∀ (up : UpPass) (o : TrailOrder) (s : State), s.resetHigh = true →
    (s.cycle.window = true → ∃ t, exec (.trailArrival up o) s = .next t
      ∧ t.cycle = { s.cycle with record := none, window := false, upLanes := up.lanes }
      ∧ t.chain.lastReach = min 15 up.trail.length ∧ t.chain.lastMissing = false
      ∧ t.ports = s.ports ∧ t.arbiter = s.arbiter)
      ∧ (s.cycle.window = true → ∃ t, exec (.receiveWindowClose o) s = .next t
          ∧ t.cycle = { s.cycle with record := none, window := false, upLanes := Tab.fill 64 0#16 }
          ∧ t.chain.lastReach = 0 ∧ t.chain.lastMissing = true ∧ t.ports = s.ports ∧ t.arbiter = s.arbiter)
      ∧ (s.cycle.window = false → exec (.trailArrival up o) s = .next s ∧ exec (.receiveWindowClose o) s = .next s)

/-! ### The control slot and its answers -/

/-- R88, R135 to R137, R141: in RUNNING the slot of a cycle goes to one client. A host port granted had a request after the
head check, no port earlier in the round-robin order had one, and on an even cycle no system client had work; it becomes the
last granted port. Without a host grant the last granted port stays, and on an odd cycle no port had a request. With no grant
nobody had work. The record of the cycle names the client and the message sent. -/
def Obligations.SlotGoesToOneClient : Prop :=
  ∀ s t : State, s.chain.state = .running → t = s.grantSlot →
    (∀ p, t.arbiter.grant = some (.host p) → t.arbiter.lastGranted = p ∧ s.headChecks.remoteQueue p ≠ []
        ∧ (∀ q, s.headChecks.remoteQueue q ≠ [] →
            (p - s.arbiter.lastGranted - 1).val ≤ (q - s.arbiter.lastGranted - 1).val)
        ∧ (s.cycle.counter.getLsbD 0 = false → s.headChecks.systemClient = none))
      ∧ ((∀ p, t.arbiter.grant ≠ some (.host p)) → t.arbiter.lastGranted = s.arbiter.lastGranted
          ∧ t.arbiter.grant = s.headChecks.systemClient
          ∧ (s.cycle.counter.getLsbD 0 = true ∨ t.arbiter.grant = none → ∀ q, s.headChecks.remoteQueue q = []))
      ∧ t.cycle.record = some { client := t.arbiter.grant, target := t.cycle.msg.target, kind := t.cycle.msg.kind }
      ∧ t.ports = s.ports ∧ t.streams = s.streams ∧ t.drafts = s.drafts ∧ t.commits = s.commits
      ∧ t.switch.plan = s.switch.plan ∧ t.switch.epoch = s.switch.epoch

/-- R143, R144, R146: the answer of the cycle at an outstanding request that is not discarded. A valid answer, or for a write
to ALL control-seen from every expected position, completes it with REMOTE_DONE; without one it returns to the head of its
port's queue with one more retry while its retries are below the limit, and otherwise ends with REMOTE_FAILED(NO_ANSWER) or
REMOTE_PARTIAL. A discarded request gives nothing. -/
def Obligations.RemoteAnswersAreTaken : Prop :=
  ∀ (a : Arrival) (o : Outstanding) (s u : State), s.remote.outstanding = some o → u = s.setOutstanding none →
    (o.discarded = true → s.readRemote a = u)
      ∧ (o.discarded = false → o.request.kind = .read → ∀ ans, a.answerFor (.host o.port) = some ans →
          s.readRemote a = u.notifySession o.port o.request.session
            (.remoteDone o.request.tag (some (ans.payload.take o.request.length))))
      ∧ (o.discarded = false → o.request.kind = .write → a.answerFor (.host o.port) ≠ none →
          s.readRemote a = u.notifySession o.port o.request.session (.remoteDone o.request.tag none))
      ∧ (o.discarded = false → o.request.kind ≠ .writeAll → a.answerFor (.host o.port) = none →
          s.readRemote a =
            if o.request.retries < s.switch.settings.retryLimit then
              u.setRemoteQueue o.port ({ o.request with retries := o.request.retries + 1 } :: s.remoteQueue o.port)
            else u.notifySession o.port o.request.session (.remoteFailed o.request.tag .noAnswer))
      ∧ (o.discarded = false → o.request.kind = .writeAll →
          s.readRemote a =
            if ∀ q ∈ o.expected, ∃ f, a.trail.valid q = some f ∧ f.controlSeen = true then
              u.notifySession o.port o.request.session (.remoteDone o.request.tag none)
            else if o.request.retries < s.switch.settings.retryLimit then
              u.setRemoteQueue o.port ({ o.request with retries := o.request.retries + 1 } :: s.remoteQueue o.port)
            else u.notifySession o.port o.request.session
              (.remotePartial o.request.tag (seenCount a.trail o.expected)))

/-- R149, R151: the answer to an EVENT_TAKE. An event record given up by position p raises the endpoint's event and takes p
out of the fetch-wanted set; NO_EVENT takes p out; no valid answer leaves the set. The fetch outstanding is removed in every
case, and the other positions stay wanted. -/
def Obligations.FetchAnswersAreTaken : Prop :=
  ∀ (a : Arrival) (p : Nat) (s : State), s.fetch.outstanding = some p →
    (a.answerFor .fetch = none → s.answerFetch a = s.setFetch { s.fetch with outstanding := none })
      ∧ (∀ ans, a.answerFor .fetch = some ans →
          (s.answerFetch a).fetch =
            { s.fetch with outstanding := none, wanted := s.fetch.wanted.filter fun q => q != p }
          ∧ (ans.result ≠ .ok → (s.answerFetch a).router = s.router)
          ∧ (∀ code d1 d0 rest, ans.result = .ok → ans.payload = code :: d1 :: d0 :: rest →
              s.answerFetch a =
                (s.setFetch { s.fetch with outstanding := none, wanted := s.fetch.wanted.filter fun q => q != p }).raise
                  (.endpoint p code.toNat (d1 ++ d0))))

/-- R25: first fit gives the lowest first lane f at which lanes f to f + n − 1 are all free and f + n − 1 is at most 63. -/
def Obligations.FirstFitTakesLowestRun : Prop :=
  ∀ (w : Plan) (pass : Pass) (n : Nat), 1 ≤ n → n ≤ 16 →
    (∀ f, firstFit w pass n = some f ↔
      (f + n - 1 ≤ 63 ∧ (∀ i, f ≤ i → i < f + n → laneFree w pass i = true)
        ∧ ∀ g, g < f → ∃ i, g ≤ i ∧ i < g + n ∧ laneFree w pass i = false))
      ∧ (firstFit w pass n = none ↔ ∀ f, f + n - 1 ≤ 63 → ∃ i, f ≤ i ∧ i < f + n ∧ laneFree w pass i = false)

/-! ### Batches and switches -/

/-- R5, R56, R58, R61 to R65, R67, R72: at every BATCH_FORMATION a rejected commit's draft returns to OPEN with its entries, and
its owner gets COMMIT_REJECTED with the index and the reason, where the queue has room for the notices. Of a batch that needs a
switch: the commit queue is emptied, the token
increases, the progress count is 0, the next plan is the validated working plan; the affected set holds the reachable positions
whose map changes, the stale list the others that carried no stale mark, which take one, and no other entry changes. Each marked
stream goes SWITCHING_OUT with its mark as the close cause; of the accepted commits' ops an OPEN makes its stream SWITCHING_IN, a
RESIZE pends, a CLOSE makes it SWITCHING_OUT for its owner, or leaves it to the forced close; a stream that no op names and no
mark closes keeps its record but for causes that a stale mark brings. The drafts of the accepted commits are ACTIVE with their
entries, and the active epoch, plan and settings stay. With no affected endpoint the countdown begins at once, at the switch
lead; else PREPARE begins. A draft without a commit in the queue, the ports, the Cycle Engine, the remote requests and the Event
Fetch Unit stay. -/
def Obligations.BatchHandsOverSwitch : Prop :=
  (∀ (s : State) (x : Validation), s.resetHigh = true → s.batchDue = true → x = s.validate →
    ∃ t, exec .batchFormation s = .next t ∧ t.commits = []
      ∧ ∀ y ∈ x.rejected,
          ((∀ c ∈ x.accepted, c.port ≠ y.1.port) →
            t.draft y.1.port = { s.draft y.1.port with state := .opened, flags := none })
          ∧ (s.attached y.1.port = true → (s.port y.1.port).session = y.1.session →
              ((s.routerPort y.1.port).queue.countP fun e => !e.isEvent) + x.rejected.length ≤ 16 →
              { item := .notice (.commitRejected y.2.1 y.2.2), stamp := s.cycle.counter } ∈ (t.routerPort y.1.port).queue))
  ∧ ∀ (s : State) (x : Validation), s.resetHigh = true → s.batchDue = true → x = s.validate →
    needsSwitch s.switch.plan x.work.plan = true →
    ∃ t b, exec .batchFormation s = .next t ∧ t.commits = [] ∧ t.switch.token = s.switch.token + 1
      ∧ t.switch.progress = 0 ∧ t.switch.batch = some b ∧ b.nextPlan = x.work.plan ∧ b.nextSettings = x.settings
      ∧ b.lead = s.switch.settings.switchLead ∧ b.commits = x.accepted.map (fun c => (c.port, c.session))
      ∧ (b.affected = [] → t.switch.phase = .countdown ∧ t.switch.countdown = b.lead)
      ∧ (b.affected ≠ [] → t.switch.phase = .prepare ∧ t.switch.queue = b.affected
          ∧ t.switch.transfers.map Transfer.position = b.affected)
      ∧ b.affected.Pairwise (fun q r => q < r) ∧ b.stale.Pairwise (fun q r => q < r)
      ∧ (∀ q, q ∈ b.affected ↔ 1 ≤ q ∧ q ≤ 15 ∧ mapOf s.switch.plan q ≠ mapOf b.nextPlan q ∧ (s.entry q).state = .ready
          ∧ s.chain.beyondIsolated q = false)
      ∧ (∀ q, q ∈ b.stale ↔ 1 ≤ q ∧ q ≤ 15 ∧ mapOf s.switch.plan q ≠ mapOf b.nextPlan q
          ∧ ((s.entry q).state ≠ .ready ∨ s.chain.beyondIsolated q = true) ∧ (s.entry q).stale = false)
      ∧ (∀ q, t.entry q = if q ∈ b.stale then { s.entry q with stale := true } else s.entry q)
      ∧ (∀ h, (s.stream h).mark ≠ .none → (∀ e ∈ s.opsOn x.accepted h, e = .closing h) → h ∈ b.forced
          ∧ t.stream h = { s.stream h with
              state := .switchingOut, mark := .none, causes := (t.stream h).causes
              change := .close (if (s.stream h).mark = .replaced then .replaced else .released) })
      ∧ (∀ h, (s.stream h).mark = .none → h ∉ b.forced
          ∧ (∀ k src snk n l, s.opsOn x.accepted h = [.opening k src snk n l] →
              t.stream h = { s.stream h with state := .switchingIn, causes := (t.stream h).causes })
          ∧ (∀ k n, s.opsOn x.accepted h = [.resizing k n] →
              t.stream h = { s.stream h with
                change := .resize n, state := (t.stream h).state, causes := (t.stream h).causes })
          ∧ (∀ k, s.opsOn x.accepted h = [.closing k] → (s.stream h).state ≠ .switchingOut →
              t.stream h = { s.stream h with
                state := .switchingOut, change := .close .owner, causes := (t.stream h).causes })
          ∧ (s.opsOn x.accepted h = [] →
              t.stream h = { s.stream h with
                state := (t.stream h).state, causes := (t.stream h).causes, mark := (t.stream h).mark }))
      ∧ (b.stale = [] → ∀ h, (t.stream h).causes = (s.stream h).causes
          ∧ (s.opsOn x.accepted h = [] → (s.stream h).mark = .none → t.stream h = s.stream h))
      ∧ (∀ c ∈ x.accepted, (t.draft c.port).state = .active ∧ (t.draft c.port).entries = (s.draft c.port).entries)
      ∧ (∀ p, (∀ c ∈ s.commits, c.port ≠ p) → t.draft p = s.draft p)
      ∧ t.switch.epoch = s.switch.epoch ∧ t.switch.plan = s.switch.plan ∧ t.switch.settings = s.switch.settings
      ∧ t.ports = s.ports ∧ t.cycle = s.cycle ∧ t.remote = s.remote ∧ t.arbiter = s.arbiter ∧ t.fetch = s.fetch

/-- R56, R59, R60, R152: BATCH_FORMATION of one commit that holds a SET of one setting: the setting takes effect, the draft is
EMPTY, the queue is empty, a change of event fetch empties the fetch-wanted set, and the phase, epoch, token, plan and streams
stay. -/
def Obligations.SettingsBatchCompletes : Prop :=
  ∀ (s : State) (c : CommitEntry) (k : Setting) (v : Nat), s.resetHigh = true → s.switch.phase = .idle →
    s.commits = [c] → (s.draft c.port).entries = [.setting k v] → (∀ h, (s.stream h).mark = .none) →
    (∀ q, (s.entry q).state ≠ .resyncing) →
    ∃ t, exec .batchFormation s = .next t ∧ t.commits = [] ∧ t.draft c.port = Draft.empty
      ∧ (∀ q, q ≠ c.port → t.draft q = s.draft q)
      ∧ t.switch = { s.switch with settings := s.switch.settings.set k v }
      ∧ t.fetch = { s.fetch with
          wanted := if t.switch.settings.eventFetch = s.switch.settings.eventFetch then s.fetch.wanted else [] }
      ∧ t.streams = s.streams ∧ t.chain = s.chain ∧ t.ports = s.ports ∧ t.cycle = s.cycle ∧ t.remote = s.remote
      ∧ t.arbiter = s.arbiter

/-- R6 to R9, R63, R75, R76, R152: SWITCH_CYCLE when it is due: the next plan, the epoch E+1 and the next settings are active,
the settle count is 8; SWITCHING_OUT streams are FREE; SWITCHING_IN streams take their placements and are LIVE or SUSPENDED by
their causes; a stream with a RESIZE takes its lanes and placements, a moved one its placements, both with the epoch E+1, and
every other stream stays; the drafts of the batch are EMPTY, the others stay; a change of event fetch empties the fetch-wanted
set. By the model's choice the row begins the cycle start it falls at, the counter at C (assumption 22), and not due, or made
already, it leaves the head as it is (assumption 5). -/
def Obligations.SwitchCycleMakesPlanActive : Prop :=
  ∀ (s u : State), s.resetHigh = true → u = s.openCycle →
    (∀ b, u.switch.phase = .countdown → u.switch.countdown = 0 → u.switch.batch = some b → u.cycle.made .switch = false →
      ∃ t, exec .switchCycle s = .next t
        ∧ t.switch = { u.switch with
            epoch := u.switch.epoch + 1, plan := b.nextPlan, settings := b.nextSettings, phase := .settle, settle := 8 }
        ∧ (∀ x ∈ b.commits, t.draft x.1 = Draft.empty)
        ∧ (∀ p, (∀ x ∈ b.commits, x.1 ≠ p) → t.draft p = u.draft p)
        ∧ (∀ h, (u.stream h).state = .switchingOut → t.stream h = Stream.free)
        ∧ (∀ h, (u.stream h).state = .switchingIn →
            t.stream h = { u.stream h with
              state := if (u.stream h).causes.isEmpty then .live else .suspended
              down := (placementOf b.nextPlan h).1, up := (placementOf b.nextPlan h).2, placedEpoch := u.switch.epoch + 1
              change := .none
              mark := if (u.stream h).orphan = true ∧ (u.stream h).mark = .none then .released else (u.stream h).mark })
        ∧ (∀ h, (u.stream h).state = .live ∨ (u.stream h).state = .suspended →
            (∀ n, (u.stream h).change = .resize n →
              t.stream h = { u.stream h with
                lanes := n, down := (placementOf b.nextPlan h).1, up := (placementOf b.nextPlan h).2
                placedEpoch := u.switch.epoch + 1, change := .none })
            ∧ ((∀ n, (u.stream h).change ≠ .resize n) →
              t.stream h =
                if ((u.stream h).down, (u.stream h).up) = placementOf b.nextPlan h then u.stream h
                else { u.stream h with
                  down := (placementOf b.nextPlan h).1, up := (placementOf b.nextPlan h).2
                  placedEpoch := u.switch.epoch + 1 }))
        ∧ (∀ h, (u.stream h).state = .staged ∨ (u.stream h).state = .free → t.stream h = u.stream h)
        ∧ t.fetch = { u.fetch with
            wanted := if b.nextSettings.eventFetch = u.switch.settings.eventFetch then u.fetch.wanted else [] }
        ∧ t.cycle = { u.cycle with begun := u.cycle.begun.map (CycleAct.switch :: ·) }
        ∧ t.commits = u.commits ∧ t.chain = u.chain ∧ t.ports = u.ports ∧ t.remote = u.remote ∧ t.arbiter = u.arbiter)
      ∧ (u.switch.phase ≠ .countdown ∨ u.switch.countdown ≠ 0 ∨ u.switch.batch = none ∨ u.cycle.made .switch = true →
          exec .switchCycle s = .next s)

/-- R10, R62, R63, R70, R80: an abandonment leaves the epoch, plan and settings, increases the token and returns the Switch
Engine to IDLE without a batch; the drafts of the batch return to OPEN with their entries, or are discarded when their session
has ended, and only then are the streams of their OPEN entries FREE. Of the other streams a SWITCHING_IN one is STAGED; a RESIZE
no longer pends, lanes and placements kept; a SWITCHING_OUT one is LIVE or SUSPENDED by its causes, with the stronger of the mark
it gave up and the mark it holds; an orphan restored without a mark takes RELEASED. The stale marks of the batch's list are
removed and no other entry changes. PREPARE_TIMEOUT abandons a PREPARE whose progress count has reached the prepare timeout, and
what waited for the Switch Engine is taken at its return to IDLE; that below the timeout, or outside PREPARE, the row leaves the
head as it is, is the model's choice (assumption 5). -/
def Obligations.PrepareTimeoutAbandons : Prop :=
  ∀ (s t : State) (m : Meet) (b : Batch), s.resetHigh = true → s.switch.batch = some b → (b.commits.map Prod.fst).Nodup →
    t = s.abandon .timeout →
    (s.switch.phase = .prepare → s.switch.settings.prepareTimeout ≤ s.switch.progress →
      exec (.prepareTimeout m) s = .next (t.settleWork m))
      ∧ (s.switch.progress < s.switch.settings.prepareTimeout → exec (.prepareTimeout m) s = .next s)
      ∧ (s.switch.phase ≠ .prepare → exec (.prepareTimeout m) s = .next s)
      ∧ t.switch = { s.switch with
          phase := .idle, token := s.switch.token + 1, batch := none, transfers := [], queue := [], progress := 0
          countdown := 0 }
      ∧ (∀ x ∈ b.commits, (s.draft x.1).ended = false →
          t.draft x.1 = { s.draft x.1 with state := .opened, flags := none })
      ∧ (∀ x ∈ b.commits, (s.draft x.1).ended = true → t.draft x.1 = Draft.empty)
      ∧ (∀ p, (∀ x ∈ b.commits, x.1 ≠ p) → t.draft p = s.draft p)
      ∧ (∀ q, t.entry q = if q ∈ b.stale then { s.entry q with stale := false } else s.entry q)
      ∧ (∀ h, s.discards b h = true → t.stream h = Stream.free)
      ∧ (∀ h, s.discards b h = false →
          ((s.stream h).state = .free → t.stream h = s.stream h)
          ∧ ((s.stream h).state = .staged → t.stream h = { s.stream h with causes := (t.stream h).causes })
          ∧ ((s.stream h).state = .switchingIn →
              t.stream h = { s.stream h with
                state := .staged, down := none, up := none, change := .none, mark := .none, causes := (t.stream h).causes })
          ∧ ((s.stream h).state = .switchingOut →
              t.stream h = { s.stream h with
                state := if (t.stream h).causes.isEmpty then .live else .suspended
                change := .none, causes := (t.stream h).causes
                mark := if (s.stream h).orphan = true ∧ (s.stream h).change.mark.max (s.stream h).mark = .none then .released
                  else (s.stream h).change.mark.max (s.stream h).mark })
          ∧ ((s.stream h).state = .live ∨ (s.stream h).state = .suspended →
              ((t.stream h).state = .live ∨ (t.stream h).state = .suspended)
              ∧ (∀ n, (s.stream h).change = .resize n →
                  t.stream h = { s.stream h with
                    state := (t.stream h).state, change := .none, causes := (t.stream h).causes
                    mark := if (s.stream h).orphan = true ∧ (s.stream h).mark = .none then .released
                      else (s.stream h).mark })
              ∧ ((∀ n, (s.stream h).change ≠ .resize n) →
                  t.stream h = { s.stream h with
                    state := (t.stream h).state, causes := (t.stream h).causes, mark := (t.stream h).mark }))
          ∧ (b.stale = [] → (t.stream h).causes = (s.stream h).causes
              ∧ ((s.stream h).state = .live → (t.stream h).state = .live)
              ∧ ((s.stream h).state = .suspended → (t.stream h).state = .suspended)))
      ∧ t.commits = s.commits ∧ t.ports = s.ports ∧ t.cycle = s.cycle ∧ t.remote = s.remote ∧ t.arbiter = s.arbiter
      ∧ t.fetch = s.fetch

/-- R69, R71, R72, R78, R79, R80, R115: what a trail does to the transfer records, and the end of the window. In PREPARE a seal
answered OK makes its record READY, a seal without that answer or a readiness lost is resent from line 0; a resend beyond the
second abandons with MAP_TRANSFER, the prepare timeout with TIMEOUT; with every record READY COUNTDOWN begins. In COUNTDOWN a
readiness lost makes the record missed. In SETTLE a valid entry settles its record, or unsettles it, by its epoch, and the last
trail ends the window. SETTLE_END at settle count 0 discards the batch and returns the Switch Engine to IDLE, and what waited is
taken; a READY affected endpoint that did not settle or was missed takes an out-of-step mark, or a stale mark beyond an ISOLATED
hop; one that settled and was not missed, or is not READY, takes none. The model's choices: a PREPARE that began in a trail
arrival reads no part of it (assumption 10), a loss by the break rule goes before the other reasons (assumption 11), and the
positions one trail resends queue in record order (assumption 12). -/
def Obligations.SettleEndReturnsToIdle : Prop :=
  (∀ (s : State) (m : Meet), s.resetHigh = true → s.switch.phase = .settle → s.switch.settle = 0 →
    exec (.settleEnd m) s = .next (s.settleEnd.settleWork m)
      ∧ s.settleEnd.switch = { s.switch with phase := .idle, batch := none, transfers := [], queue := [], settle := 0 }
      ∧ (∀ x ∈ s.switch.transfers, (s.entry x.position).state = .ready → x.settled = false ∨ x.missed = true →
          s.settleEnd.entry x.position =
            if s.chain.beyondIsolated x.position then { s.entry x.position with stale := true }
            else { s.entry x.position with outOfStep := true })
      ∧ (∀ q, (∀ x ∈ s.switch.transfers, x.position = q →
            (s.entry q).state ≠ .ready ∨ (x.settled = true ∧ x.missed = false)) → s.settleEnd.entry q = s.entry q)
      ∧ s.settleEnd.ports = s.ports ∧ s.settleEnd.cycle = s.cycle ∧ s.settleEnd.remote = s.remote)
  ∧ ∀ (a : Arrival) (s : State),
    (s.switch.phase = .settle → ∀ u, u = s.setSwitch { s.switch with
          transfers := s.switch.transfers.map fun x => x.watched a s.switch.epoch, settle := s.switch.settle - 1 } →
        s.readSwitch a = if s.switch.settle ≤ 1 then u.settleEnd else u)
      ∧ (s.switch.phase = .countdown →
          s.readSwitch a = s.setSwitch { s.switch with
            transfers := s.switch.transfers.map fun x => x.counted a s.switch.token })
      ∧ (s.switch.phase = .idle → s.readSwitch a = s)
      ∧ (s.switch.phase = .prepare → s.switch.token ≠ a.token → s.readSwitch a = s)
      ∧ (s.switch.phase = .prepare → s.switch.token = a.token →
          ∀ (after : List Transfer) (progress : Nat),
            after = s.switch.transfers.map (fun x => x.prepared a s.switch.token) →
            progress = (if (∃ x ∈ s.switch.transfers, x.status = .sent) ∧ a.sealsOk s.switch.token = true then 0
              else s.switch.progress + 1) →
            ((∃ x ∈ s.switch.transfers, x.failedBy a s.switch.token = true ∧ 2 ≤ x.resends) →
                s.readSwitch a = s.abandon
                  (if ∃ x ∈ s.switch.transfers, x.position ∈ a.losses then .endpointLost else .mapTransfer))
              ∧ ((∀ x ∈ s.switch.transfers, x.failedBy a s.switch.token = true → x.resends < 2) →
                  (s.switch.settings.prepareTimeout ≤ progress →
                    s.readSwitch a = s.abandon
                      (if ∃ x ∈ s.switch.transfers, x.position ∈ a.losses then .endpointLost else .timeout))
                  ∧ (progress < s.switch.settings.prepareTimeout → ∀ b, s.switch.batch = some b →
                      s.readSwitch a = s.setSwitch { s.switch with
                        transfers := after, progress := progress
                        queue := s.switch.queue
                          ++ (s.switch.transfers.filter fun x => x.failedBy a s.switch.token).map Transfer.position
                        phase := if ∀ x ∈ after, x.status = .ready then .countdown else .prepare
                        countdown := if ∀ x ∈ after, x.status = .ready then b.lead else s.switch.countdown })))

/-! ### The chain -/

/-- R18, R55, R64, R103, R105, R121, R122, R148, R152: CHAIN_RESTART is refused with SWITCH_BUSY while the Switch Engine is not
IDLE or a commit is queued, else with IN_USE when a non-FREE stream does not belong to the requesting session. Accepted, it
leaves every stream FREE, the requester's draft EMPTY, the plan empty, the epoch and the token increased, the settings kept,
the chain table at its reset values and the chain in BRINGUP, no remote request and nothing wanted; the other drafts, the
counter and the other ports' contexts stay. -/
def Obligations.ChainRestartGivesUpPlan : Prop :=
  ∀ (p : Port) (s : State), s.serves p →
    (s.switch.phase ≠ .idle ∨ s.commits ≠ [] →
      exec (.chainRestart p (.sized ())) s = .next (s.refused p .switchBusy))
      ∧ (∀ h, s.switch.phase = .idle → s.commits = [] → (s.stream h).state ≠ .free →
          (s.stream h).owner ≠ some (p, (s.port p).session) ∨ (s.stream h).orphan = true →
          exec (.chainRestart p (.sized ())) s = .next (s.refused p .inUse))
      ∧ (s.switch.phase = .idle → s.commits = [] →
          (∀ h, (s.stream h).state ≠ .free →
            (s.stream h).owner = some (p, (s.port p).session) ∧ (s.stream h).orphan = false) →
          ∃ t, exec (.chainRestart p (.sized ())) s = .next t
            ∧ (∀ h, (t.stream h).state = .free) ∧ t.draft p = Draft.empty ∧ (∀ q, q ≠ p → t.draft q = s.draft q)
            ∧ t.switch = { s.switch with plan := [], epoch := s.switch.epoch + 1, token := s.switch.token + 1 }
            ∧ t.chain.state = .bringUp ∧ (∀ q, t.entry q = ChainEntry.reset)
            ∧ t.chain.bringUp = some { position := 1, step := .wait, cycles := some 0, tries := 0 }
            ∧ (∀ q, t.remoteQueue q = []) ∧ t.remote.outstanding = none ∧ t.fetch = { s.fetch with wanted := [] }
            ∧ t.cycle = { s.cycle with portEnabled := true } ∧ t.arbiter = s.arbiter ∧ t.commits = []
            ∧ t.port p = (s.port p).accepting { status := .ok, body := .empty } ∧ (∀ q, q ≠ p → t.port q = s.port q))

/-- R113: PROBE_DUE when the probe count reaches the interval in force: the count returns to 0 and a probe is pending, but
for m at 15, where none is. By the model's choice the row begins the cycle start it falls at (assumption 22), and before the
interval, outside RUNNING, or made already, it leaves the head as it is (assumption 5). R114: a valid OK answer to the probe's
SEEK is taken while the position sought is still m+1: an ABSENT position becomes JOINING as new, a LOST one with the same kind and
serial rejoins, with another identity it is replaced, the streams that touch it taking mark REPLACED; the quiet count is 0, the
marks are kept, the events are raised in the order of the rule and the Stream Table recomputes. That a rejoining entry keeps its
reported epoch and a new one has none is the model's choice (assumption 14). Any other answer changes nothing. -/
def Obligations.ProbeFallsDue : Prop :=
  (∀ s u : State, s.resetHigh = true → u = s.openCycle →
    (u.chain.state = .running → u.switch.settings.probeInterval ≤ u.chain.probeCount + 1 → u.cycle.made .probe = false →
      exec .probeDue s = .next
        ((u.setChain { u.chain with probeCount := 0, probePending := decide (u.chain.endM < 15) }).setCycle
          { u.cycle with begun := u.cycle.begun.map (CycleAct.probe :: ·) }))
      ∧ (u.chain.state = .running → u.chain.probeCount + 1 < u.switch.settings.probeInterval →
          exec .probeDue s = .next s)
      ∧ (u.chain.state ≠ .running → exec .probeDue s = .next s)
      ∧ (u.cycle.made .probe = true → exec .probeDue s = .next s))
  ∧ ∀ (a : Arrival) (q : Nat) (s : State), a.record.client = some (.chain .probe) → a.record.target = q →
    s.chain.state = .running → 1 ≤ q → q ≤ 15 →
    (q ≠ s.chain.endM + 1 ∨ a.answer = none ∨ (∃ ans, a.answer = some ans ∧ ans.result ≠ .ok) → s.answerChain a = s)
      ∧ ∀ (ans : Answer) (i : Identity), q = s.chain.endM + 1 → a.answer = some ans → ans.result = .ok →
        identityOf ans.payload = some i →
        ∃ c : ChainManager, (∀ r, r ≠ q → c.entry r = s.entry r)
          ∧ ((s.entry q).state = .absent →
              c.entry q = { s.entry q with
                state := .joining, identity := some i, rejoined := false, quiet := 0, reported := none }
              ∧ s.answerChain a = ((s.setChain c).raise (.endpointJoined q)).recompute)
          ∧ (∀ j, (s.entry q).state = .lost → (s.entry q).identity = some j → i.kind = j.kind → i.serial = j.serial →
              c.entry q = { s.entry q with state := .joining, identity := some i, rejoined := true, quiet := 0 }
              ∧ s.answerChain a = ((s.setChain c).raise (.endpointJoined q)).recompute)
          ∧ (∀ j, (s.entry q).state = .lost → (s.entry q).identity = some j → i.kind ≠ j.kind ∨ i.serial ≠ j.serial →
              c.entry q = { s.entry q with
                state := .joining, identity := some i, rejoined := false, quiet := 0, reported := none }
              ∧ ∃ marked : Tab Stream 32,
                (∀ h, marked.get h =
                  if (s.stream h).state ≠ .free ∧ (s.stream h).state ≠ .staged ∧ q ∈ (s.stream h).source :: (s.stream h).sinks
                  then { s.stream h with mark := .replaced } else s.stream h)
                ∧ s.answerChain a = (({ s.setChain c with streams := marked }.raise (.endpointReplaced q)).raise
                    (.endpointJoined q)).recompute)

/-- R105, R88, R138: BRINGUP_SEEK at the 32nd cycle start of a wait, or 8 cycle starts after an unanswered try while fewer
than 3 are made: after the head checks of the cycle start the chain client is granted the slot for a SEEK to the position sought,
and the try is counted. By the model's choice the row begins the cycle start it falls at, and the CYCLE_START that follows
carries that SEEK in its lead block (assumption 22). R106: a valid OK answer to it makes the position JOINING as new with the
identity answered, limits above 32 stored as 32, and raises ENDPOINT_JOINED; below 15 the next position is sought, its wait to
begin with the EXTEND that is due (assumption 9), at 15 the chain is RUNNING. Any other answer is unanswered: the third ends
bring-up, and the chain is RUNNING. -/
def Obligations.BringupSeekGoesOut : Prop :=
  (∀ (s u v : State) (b : BringUp) (n : Nat), s.resetHigh = true → u = s.openCycle → v = u.headChecks →
    u.chain.state = .bringUp → u.chain.bringUp = some b → b.cycles = some n →
    (b.step = .wait ∧ n + 1 = 32) ∨ (b.step = .seek ∧ b.tries < 3 ∧ n + 1 = 32 + 8 * b.tries) →
    u.cycle.made .slot = false →
    ∃ t, exec .bringupSeek s = .next t
      ∧ t = ((v.setArbiter { v.arbiter with grant := some (.chain .bringUpSeek) }).setCycle
          { u.cycle with
            msg := { target := b.position, kind := .seek, payload := [0#8, 0#8, 0#8, 0#8, 0#8, 0#8, 0#8, 0#8] }
            record := some { client := some (.chain .bringUpSeek), target := b.position, kind := .seek }
            begun := u.cycle.begun.map (CycleAct.slot :: ·) }).setChain
        { u.chain with bringUp := some { b with step := .seek, tries := b.tries + 1, cycles := some (n + 1) } }
      ∧ (u.cycle.made .lead = false → ∀ (m : Tab Sample 64) (o : List CycleAct), ∃ w l,
          exec (.cycleStart m o) t = .next w ∧ w.cycle.lead = some l
          ∧ l.cycle = u.cycle.counter.setWidth 16 ∧ l.msg = t.cycle.msg ∧ w.cycle.record = t.cycle.record))
  ∧ ∀ (a : Arrival) (b : BringUp) (s : State), a.record.client = some (.chain .bringUpSeek) → a.record.target = b.position →
    s.chain.state = .bringUp → s.chain.bringUp = some b → b.step = .seek → 1 ≤ b.position → b.position ≤ 15 →
    (∀ (ans : Answer) (kind revision s3 s2 s1 s0 sources sinks : Byte), a.answer = some ans → ans.result = .ok →
        ans.payload = [kind, revision, s3, s2, s1, s0, sources, sinks] →
        ∃ c : ChainManager, s.answerChain a = ((s.setChain c).raise (.endpointJoined b.position)).recompute
          ∧ c.entry b.position = { s.entry b.position with
              state := .joining, rejoined := false, quiet := 0, reported := none
              identity := some { kind := kind, revision := revision, serial := s3 ++ s2 ++ s1 ++ s0
                                 sourceLimit := min 32 sources.toNat, sinkLimit := min 32 sinks.toNat } }
          ∧ (∀ q, q ≠ b.position → c.entry q = s.entry q)
          ∧ (b.position < 15 → c.state = .bringUp
              ∧ c.bringUp = some { position := b.position + 1, step := .wait, cycles := none, tries := 0 })
          ∧ (b.position = 15 → c.state = .running ∧ c.bringUp = none))
      ∧ (a.answer = none ∨ (∃ ans, a.answer = some ans ∧ ans.result ≠ .ok) →
          (b.tries < 3 → s.answerChain a = s)
          ∧ (3 ≤ b.tries → ∃ c : ChainManager, s.answerChain a = s.setChain c ∧ c.state = .running ∧ c.bringUp = none
              ∧ ∀ q, c.entry q = s.entry q))

/-- R131, R132, R134: ISOLATION_RECOVERY at a clean run of 256: the hop is HEALTHY with score 0 and clean run 0, the other
hops stay, and so do the ports, the Cycle Engine and the remote requests. -/
def Obligations.IsolationRecoveryClearsHop : Prop :=
  ∀ (s : State) (p : Nat), s.resetHigh = true → 1 ≤ p → p ≤ 15 → (s.entry p).hopState = .isolated →
    256 ≤ (s.entry p).cleanRun →
    ∃ t, exec (.isolationRecovery p) s = .next t
      ∧ (t.entry p).hopState = .healthy ∧ (t.entry p).hopScore = 0 ∧ (t.entry p).cleanRun = 0
      ∧ (∀ q, q ≠ p → (t.entry q).hopState = (s.entry q).hopState ∧ (t.entry q).hopScore = (s.entry q).hopScore
          ∧ (t.entry q).cleanRun = (s.entry q).cleanRun)
      ∧ t.ports = s.ports ∧ t.cycle = s.cycle ∧ t.remote = s.remote ∧ t.switch.epoch = s.switch.epoch

/-- R110, R111, R125: BREAK_DETECTED at a break count of 3: every enrolled position above the largest short reach is LOST
with quiet count 0, attempts 0 and its hop at reset, keeping its identity and reported epoch; the break counters return to 0;
no position at or below the largest short reach is lost. -/
def Obligations.BreakLosesPositions : Prop :=
  ∀ (s : State) (m : Meet), s.resetHigh = true → 3 ≤ s.chain.breakCount →
    ∃ t, exec (.breakDetected m) s = .next t ∧ t.chain.breakCount = 0 ∧ t.chain.largestShort = 0
      ∧ (∀ q, s.chain.largestShort < q → (s.entry q).enrolled = true →
          (t.entry q).state = .lost ∧ (t.entry q).quiet = 0 ∧ (t.entry q).attempts = 0 ∧ (t.entry q).hopScore = 0
            ∧ (t.entry q).hopState = .healthy ∧ (t.entry q).cleanRun = 0 ∧ (t.entry q).identity = (s.entry q).identity
            ∧ (t.entry q).reported = (s.entry q).reported)
      ∧ (∀ q, q ≤ s.chain.largestShort → (t.entry q).enrolled = (s.entry q).enrolled)
      ∧ t.ports = s.ports ∧ t.cycle = s.cycle ∧ t.arbiter = s.arbiter

/-- R108: a JOINING entry at quiet count 16 becomes READY when it is not rejoined and carries no mark, RESYNCING with the
Switch Engine IDLE otherwise, and stays while the Switch Engine is busy. That the quiet count keeps its value as the entry leaves
JOINING is the model's choice (assumption 24). -/
def Obligations.QuietCountCompletes : Prop :=
  ∀ (s : State) (p : Nat), s.resetHigh = true → (s.entry p).state = .joining → (s.entry p).quiet = 16 →
    ∃ t, exec (.quietCountComplete p) s = .next t
      ∧ ((s.entry p).rejoined = false → (s.entry p).stale = false → (s.entry p).outOfStep = false →
          t.entry p = { s.entry p with state := .ready })
      ∧ ((s.entry p).rejoined = true ∨ (s.entry p).stale = true ∨ (s.entry p).outOfStep = true →
          (s.switch.phase = .idle → t.entry p = { s.entry p with state := .resyncing, attempts := 0 })
            ∧ (s.switch.phase ≠ .idle → t = s))
      ∧ (∀ q, q ≠ p → t.entry q = s.entry q)
      ∧ t.switch = s.switch ∧ t.ports = s.ports ∧ t.cycle = s.cycle ∧ t.remote = s.remote ∧ t.commits = s.commits

/-- R116, R117: RESYNC_ENTRY with the Switch Engine IDLE: every marked READY entry that lies beyond no ISOLATED hop, and every
JOINING entry at quiet count 16 that is rejoined or marked, is RESYNCING with attempts 0, and a resync transfer is present; an
unmarked READY entry, a marked one beyond an ISOLATED hop, a JOINING one below 16 and every LOST, ABSENT or RESYNCING one stays as
it is. That with the Switch Engine busy the row leaves the head as it is, is the model's choice (assumption 5). -/
def Obligations.MarkedEntriesResync : Prop :=
  ∀ s : State, s.resetHigh = true →
    (s.switch.phase = .idle → ∃ t, exec .resyncEntry s = .next t
      ∧ (∀ q, (s.entry q).state = .ready → (s.entry q).stale = true ∨ (s.entry q).outOfStep = true →
          s.chain.beyondIsolated q = false →
          t.entry q = { s.entry q with state := .resyncing, attempts := 0 } ∧ t.chain.resync.isSome = true)
      ∧ (∀ q, (s.entry q).state = .joining → (s.entry q).quiet = 16 →
          (s.entry q).rejoined = true ∨ (s.entry q).stale = true ∨ (s.entry q).outOfStep = true →
          t.entry q = { s.entry q with state := .resyncing, attempts := 0 } ∧ t.chain.resync.isSome = true)
      ∧ (∀ q, (s.entry q).state = .ready →
          ((s.entry q).stale = false ∧ (s.entry q).outOfStep = false) ∨ s.chain.beyondIsolated q = true →
          t.entry q = s.entry q)
      ∧ (∀ q, (s.entry q).state = .joining → (s.entry q).quiet ≠ 16 → t.entry q = s.entry q)
      ∧ (∀ q, (s.entry q).state = .lost ∨ (s.entry q).state = .absent ∨ (s.entry q).state = .resyncing →
          t.entry q = s.entry q)
      ∧ t.switch = s.switch ∧ t.ports = s.ports ∧ t.cycle = s.cycle ∧ t.remote = s.remote)
      ∧ (s.switch.phase ≠ .idle → exec .resyncEntry s = .next s)

/-- Table 7-2, R128 to R131: a hop at a trail: a charge adds 8 to a ceiling of 255, a clean cycle takes 1 off; HEALTHY
becomes DEGRADED at 96, DEGRADED becomes ISOLATED at 192 and HEALTHY at 63 or less; an ISOLATED hop keeps its score, a charge
clears its clean run and the 256th clean cycle recovers it. -/
def Obligations.HopGrading : Prop :=
  ∀ (t : Trail) (m p : Nat) (e f : ChainEntry), e.hopLawful → f = e.afterTrail t m p →
    (charged t m p = false → cleanCycle t m p = false → f = e)
      ∧ (charged t m p = true → e.hopState ≠ .isolated → f.hopScore = min 255 (e.hopScore + 8)
          ∧ f.hopState = (if 192 ≤ f.hopScore then .isolated else if 96 ≤ f.hopScore then .degraded else e.hopState))
      ∧ (cleanCycle t m p = true → e.hopState ≠ .isolated → f.hopScore = e.hopScore - 1
          ∧ f.hopState = (if e.hopState = .degraded ∧ f.hopScore ≤ 63 then .healthy else e.hopState))
      ∧ (charged t m p = true → e.hopState = .isolated → f = { e with cleanRun := 0 })
      ∧ (cleanCycle t m p = true → e.hopState = .isolated → e.cleanRun + 1 < 256 →
          f = { e with cleanRun := e.cleanRun + 1 })
      ∧ (cleanCycle t m p = true → e.hopState = .isolated → 256 ≤ e.cleanRun + 1 →
          f = { e with hopState := .healthy, hopScore := 0, cleanRun := 0 })

/-! ### Laws every step keeps -/

/-- The laws of Safety.lean hold right after device reset. -/
def Obligations.ResetMeetsLaws : Prop :=
  State.reset.routerLaw ∧ State.reset.attentionLaw ∧ State.reset.streamLaw ∧ State.reset.commitLaw ∧ State.reset.planLaw
    ∧ State.reset.chainLaw ∧ State.reset.hopLaw ∧ State.reset.remoteLaw

/-- R154, R161, R165: no port queue ever holds more than 16 entries or more than 12 events, and no counter passes 255; the
attention line follows the queue while a session lasts, and the queue of a DETACHED port is empty. -/
def Obligations.PortQueuesKept : Prop :=
  ∀ s t : State, s.routerLaw → s.attentionLaw → step s = .next t → t.routerLaw ∧ t.attentionLaw

/-- R16: a LIVE stream has an empty cause set and a SUSPENDED one a non-empty one, at every step. -/
def Obligations.StreamCausesKept : Prop :=
  ∀ s t : State, s.streamLaw → step s = .next t → t.streamLaw

/-- R53: one commit entry per port, a draft QUEUED exactly while its entry waits, at every step. -/
def Obligations.CommitQueueKept : Prop :=
  ∀ s t : State, s.commitLaw → step s = .next t → t.commitLaw

/-- R21: no lane of a pass belongs to two placements and every placement lies within lanes 0 to 63, in the active plan and in
the next plan of a batch, at every step. -/
def Obligations.PlanLanesKeptApart : Prop :=
  ∀ s t : State, s.planLaw → step s = .next t → t.planLaw

/-- R104: the enrolled positions are exactly 1 to m, at every step. -/
def Obligations.ChainTableKeptWhole : Prop :=
  ∀ s t : State, s.chainLaw → step s = .next t → t.chainLaw

/-- R124, R128 to R131: every hop's score fits its grade, at every step. -/
def Obligations.HopScoresKept : Prop :=
  ∀ s t : State, s.hopLaw → step s = .next t → t.hopLaw

/-- R139: no port ever holds more than 4 remote requests. -/
def Obligations.RemoteHoldingKept : Prop :=
  ∀ s t : State, s.remoteLaw → step s = .next t → t.remoteLaw
end

