-- ==== Sys2Proof/Laws/Tab.lean ====
section
/-! SUPPORT. The laws of the fixed-size table: reading after writing, and reading of the table makers. -/

namespace Sys2Proof.Tab

variable {α β : Type}

@[simp] theorem get_set_same : ∀ {n : Nat} (t : Tab α n) (i : Fin n) (a : α), (t.set i a).get i = a
  | _, .cons _ _, ⟨0, _⟩, _ => rfl
  | _, .cons _ t, ⟨k + 1, h⟩, a => get_set_same t ⟨k, Nat.lt_of_succ_lt_succ h⟩ a

theorem get_set_ne : ∀ {n : Nat} (t : Tab α n) (i j : Fin n) (a : α), j ≠ i → (t.set i a).get j = t.get j
  | _, .cons _ _, ⟨0, _⟩, ⟨0, _⟩, _, h => absurd rfl h
  | _, .cons _ _, ⟨0, _⟩, ⟨_ + 1, _⟩, _, _ => rfl
  | _, .cons _ _, ⟨_ + 1, _⟩, ⟨0, _⟩, _, _ => rfl
  | _, .cons _ t, ⟨k + 1, hk⟩, ⟨l + 1, hl⟩, a, h =>
    get_set_ne t ⟨k, Nat.lt_of_succ_lt_succ hk⟩ ⟨l, Nat.lt_of_succ_lt_succ hl⟩ a (by
      intro he
      apply h
      have := Fin.mk.inj he
      exact Fin.ext (by simp [this]))

/-- Reading after a write, in one equation. -/
theorem get_set {n : Nat} (t : Tab α n) (i j : Fin n) (a : α) : (t.set i a).get j = if j = i then a else t.get j := by
  by_cases h : j = i
  · subst h; simp
  · simp [h, get_set_ne t i j a h]

@[simp] theorem get_ofFn : ∀ {n : Nat} (f : Fin n → α) (i : Fin n), (ofFn f).get i = f i
  | _ + 1, _, ⟨0, _⟩ => rfl
  | _ + 1, f, ⟨k + 1, h⟩ => get_ofFn (fun i => f i.succ) ⟨k, Nat.lt_of_succ_lt_succ h⟩

@[simp] theorem get_fill (n : Nat) (a : α) (i : Fin n) : (fill n a).get i = a := get_ofFn _ i

@[simp] theorem get_map (f : α → β) : ∀ {n : Nat} (t : Tab α n) (i : Fin n), (t.map f).get i = f (t.get i)
  | _, .cons _ _, ⟨0, _⟩ => rfl
  | _, .cons _ t, ⟨k + 1, h⟩ => get_map f t ⟨k, Nat.lt_of_succ_lt_succ h⟩

/-- Two tables that agree at every index are equal. -/
theorem ext_get : ∀ {n : Nat} (t u : Tab α n), (∀ i, t.get i = u.get i) → t = u
  | _, .nil, .nil, _ => rfl
  | n + 1, .cons a t, .cons b u, h => by
    have ha : a = b := h ⟨0, Nat.succ_pos n⟩
    have ht : t = u := ext_get t u fun i => h ⟨i.val + 1, Nat.succ_lt_succ i.isLt⟩
    rw [ha, ht]

/-- Writing the element already there changes nothing. -/
@[simp] theorem set_get_self {n : Nat} (t : Tab α n) (i : Fin n) : t.set i (t.get i) = t := by
  apply ext_get
  intro j
  rw [get_set]
  split
  · next h => rw [h]
  · rfl

theorem set_set_same {n : Nat} (t : Tab α n) (i : Fin n) (a b : α) : (t.set i a).set i b = t.set i b := by
  apply ext_get
  intro j
  simp only [get_set]
  split <;> rfl

theorem mem_toList_ofFn : ∀ {n : Nat} (f : Fin n → α) (i : Fin n), f i ∈ (ofFn f).toList
  | _ + 1, _, ⟨0, _⟩ => by simp [ofFn, toList]
  | _ + 1, f, ⟨k + 1, h⟩ =>
    List.mem_cons_of_mem _ (mem_toList_ofFn (fun i => f i.succ) ⟨k, Nat.lt_of_succ_lt_succ h⟩)

/-- Every index is listed. -/
theorem mem_indices {n : Nat} (i : Fin n) : i ∈ indices n := mem_toList_ofFn (fun i => i) i

end Sys2Proof.Tab
end

