-- ==== Sys2Proof/Laws/State.lean ====
section
/-! SUPPORT. One lemma per field and per update of State, true by rfl, and what each reader gives after each update: later
proofs unfold no record update. -/

namespace Sys2Proof.Machine.State

variable (s : State)

/-! setPort -/

@[simp] theorem setPort_resetHigh (p : Port) (c : PortContext) : (s.setPort p c).resetHigh = s.resetHigh := rfl
@[simp] theorem setPort_ports (p : Port) (c : PortContext) : (s.setPort p c).ports = s.ports.set p c := rfl
@[simp] theorem setPort_streams (p : Port) (c : PortContext) : (s.setPort p c).streams = s.streams := rfl
@[simp] theorem setPort_drafts (p : Port) (c : PortContext) : (s.setPort p c).drafts = s.drafts := rfl
@[simp] theorem setPort_commits (p : Port) (c : PortContext) : (s.setPort p c).commits = s.commits := rfl
@[simp] theorem setPort_switch (p : Port) (c : PortContext) : (s.setPort p c).switch = s.switch := rfl
@[simp] theorem setPort_chain (p : Port) (c : PortContext) : (s.setPort p c).chain = s.chain := rfl
@[simp] theorem setPort_cycle (p : Port) (c : PortContext) : (s.setPort p c).cycle = s.cycle := rfl
@[simp] theorem setPort_arbiter (p : Port) (c : PortContext) : (s.setPort p c).arbiter = s.arbiter := rfl
@[simp] theorem setPort_remote (p : Port) (c : PortContext) : (s.setPort p c).remote = s.remote := rfl
@[simp] theorem setPort_fetch (p : Port) (c : PortContext) : (s.setPort p c).fetch = s.fetch := rfl
@[simp] theorem setPort_router (p : Port) (c : PortContext) : (s.setPort p c).router = s.router := rfl
@[simp] theorem setPort_pending (p : Port) (c : PortContext) : (s.setPort p c).pending = s.pending := rfl
@[simp] theorem stream_setPort (p : Port) (c : PortContext) (k : Handle) : (s.setPort p c).stream k = s.stream k := rfl
@[simp] theorem draft_setPort (p : Port) (c : PortContext) (q : Port) : (s.setPort p c).draft q = s.draft q := rfl
@[simp] theorem routerPort_setPort (p : Port) (c : PortContext) (q : Port) : (s.setPort p c).routerPort q = s.routerPort q := rfl
@[simp] theorem remoteQueue_setPort (p : Port) (c : PortContext) (q : Port) : (s.setPort p c).remoteQueue q = s.remoteQueue q := rfl
@[simp] theorem entry_setPort (p : Port) (c : PortContext) (n : Nat) : (s.setPort p c).entry n = s.entry n := rfl
@[simp] theorem stamp_setPort (p : Port) (c : PortContext) : (s.setPort p c).stamp = s.stamp := rfl
@[simp] theorem idle_setPort (p : Port) (c : PortContext) : (s.setPort p c).idle = s.idle := rfl

/-! setStream -/

@[simp] theorem setStream_resetHigh (h : Handle) (r : Stream) : (s.setStream h r).resetHigh = s.resetHigh := rfl
@[simp] theorem setStream_ports (h : Handle) (r : Stream) : (s.setStream h r).ports = s.ports := rfl
@[simp] theorem setStream_streams (h : Handle) (r : Stream) : (s.setStream h r).streams = s.streams.set h r := rfl
@[simp] theorem setStream_drafts (h : Handle) (r : Stream) : (s.setStream h r).drafts = s.drafts := rfl
@[simp] theorem setStream_commits (h : Handle) (r : Stream) : (s.setStream h r).commits = s.commits := rfl
@[simp] theorem setStream_switch (h : Handle) (r : Stream) : (s.setStream h r).switch = s.switch := rfl
@[simp] theorem setStream_chain (h : Handle) (r : Stream) : (s.setStream h r).chain = s.chain := rfl
@[simp] theorem setStream_cycle (h : Handle) (r : Stream) : (s.setStream h r).cycle = s.cycle := rfl
@[simp] theorem setStream_arbiter (h : Handle) (r : Stream) : (s.setStream h r).arbiter = s.arbiter := rfl
@[simp] theorem setStream_remote (h : Handle) (r : Stream) : (s.setStream h r).remote = s.remote := rfl
@[simp] theorem setStream_fetch (h : Handle) (r : Stream) : (s.setStream h r).fetch = s.fetch := rfl
@[simp] theorem setStream_router (h : Handle) (r : Stream) : (s.setStream h r).router = s.router := rfl
@[simp] theorem setStream_pending (h : Handle) (r : Stream) : (s.setStream h r).pending = s.pending := rfl
@[simp] theorem port_setStream (h : Handle) (r : Stream) (q : Port) : (s.setStream h r).port q = s.port q := rfl
@[simp] theorem draft_setStream (h : Handle) (r : Stream) (q : Port) : (s.setStream h r).draft q = s.draft q := rfl
@[simp] theorem routerPort_setStream (h : Handle) (r : Stream) (q : Port) : (s.setStream h r).routerPort q = s.routerPort q := rfl
@[simp] theorem remoteQueue_setStream (h : Handle) (r : Stream) (q : Port) : (s.setStream h r).remoteQueue q = s.remoteQueue q := rfl
@[simp] theorem entry_setStream (h : Handle) (r : Stream) (n : Nat) : (s.setStream h r).entry n = s.entry n := rfl
@[simp] theorem stamp_setStream (h : Handle) (r : Stream) : (s.setStream h r).stamp = s.stamp := rfl
@[simp] theorem attached_setStream (h : Handle) (r : Stream) (q : Port) : (s.setStream h r).attached q = s.attached q := rfl
@[simp] theorem idle_setStream (h : Handle) (r : Stream) : (s.setStream h r).idle = s.idle := rfl

/-! setDraft -/

@[simp] theorem setDraft_resetHigh (p : Port) (d : Draft) : (s.setDraft p d).resetHigh = s.resetHigh := rfl
@[simp] theorem setDraft_ports (p : Port) (d : Draft) : (s.setDraft p d).ports = s.ports := rfl
@[simp] theorem setDraft_streams (p : Port) (d : Draft) : (s.setDraft p d).streams = s.streams := rfl
@[simp] theorem setDraft_drafts (p : Port) (d : Draft) : (s.setDraft p d).drafts = s.drafts.set p d := rfl
@[simp] theorem setDraft_commits (p : Port) (d : Draft) : (s.setDraft p d).commits = s.commits := rfl
@[simp] theorem setDraft_switch (p : Port) (d : Draft) : (s.setDraft p d).switch = s.switch := rfl
@[simp] theorem setDraft_chain (p : Port) (d : Draft) : (s.setDraft p d).chain = s.chain := rfl
@[simp] theorem setDraft_cycle (p : Port) (d : Draft) : (s.setDraft p d).cycle = s.cycle := rfl
@[simp] theorem setDraft_arbiter (p : Port) (d : Draft) : (s.setDraft p d).arbiter = s.arbiter := rfl
@[simp] theorem setDraft_remote (p : Port) (d : Draft) : (s.setDraft p d).remote = s.remote := rfl
@[simp] theorem setDraft_fetch (p : Port) (d : Draft) : (s.setDraft p d).fetch = s.fetch := rfl
@[simp] theorem setDraft_router (p : Port) (d : Draft) : (s.setDraft p d).router = s.router := rfl
@[simp] theorem setDraft_pending (p : Port) (d : Draft) : (s.setDraft p d).pending = s.pending := rfl
@[simp] theorem port_setDraft (p : Port) (d : Draft) (q : Port) : (s.setDraft p d).port q = s.port q := rfl
@[simp] theorem stream_setDraft (p : Port) (d : Draft) (k : Handle) : (s.setDraft p d).stream k = s.stream k := rfl
@[simp] theorem routerPort_setDraft (p : Port) (d : Draft) (q : Port) : (s.setDraft p d).routerPort q = s.routerPort q := rfl
@[simp] theorem remoteQueue_setDraft (p : Port) (d : Draft) (q : Port) : (s.setDraft p d).remoteQueue q = s.remoteQueue q := rfl
@[simp] theorem entry_setDraft (p : Port) (d : Draft) (n : Nat) : (s.setDraft p d).entry n = s.entry n := rfl
@[simp] theorem stamp_setDraft (p : Port) (d : Draft) : (s.setDraft p d).stamp = s.stamp := rfl
@[simp] theorem attached_setDraft (p : Port) (d : Draft) (q : Port) : (s.setDraft p d).attached q = s.attached q := rfl
@[simp] theorem idle_setDraft (p : Port) (d : Draft) : (s.setDraft p d).idle = s.idle := rfl

/-! setCommits -/

@[simp] theorem setCommits_resetHigh (l : List CommitEntry) : (s.setCommits l).resetHigh = s.resetHigh := rfl
@[simp] theorem setCommits_ports (l : List CommitEntry) : (s.setCommits l).ports = s.ports := rfl
@[simp] theorem setCommits_streams (l : List CommitEntry) : (s.setCommits l).streams = s.streams := rfl
@[simp] theorem setCommits_drafts (l : List CommitEntry) : (s.setCommits l).drafts = s.drafts := rfl
@[simp] theorem setCommits_commits (l : List CommitEntry) : (s.setCommits l).commits = l := rfl
@[simp] theorem setCommits_switch (l : List CommitEntry) : (s.setCommits l).switch = s.switch := rfl
@[simp] theorem setCommits_chain (l : List CommitEntry) : (s.setCommits l).chain = s.chain := rfl
@[simp] theorem setCommits_cycle (l : List CommitEntry) : (s.setCommits l).cycle = s.cycle := rfl
@[simp] theorem setCommits_arbiter (l : List CommitEntry) : (s.setCommits l).arbiter = s.arbiter := rfl
@[simp] theorem setCommits_remote (l : List CommitEntry) : (s.setCommits l).remote = s.remote := rfl
@[simp] theorem setCommits_fetch (l : List CommitEntry) : (s.setCommits l).fetch = s.fetch := rfl
@[simp] theorem setCommits_router (l : List CommitEntry) : (s.setCommits l).router = s.router := rfl
@[simp] theorem setCommits_pending (l : List CommitEntry) : (s.setCommits l).pending = s.pending := rfl
@[simp] theorem port_setCommits (l : List CommitEntry) (q : Port) : (s.setCommits l).port q = s.port q := rfl
@[simp] theorem stream_setCommits (l : List CommitEntry) (k : Handle) : (s.setCommits l).stream k = s.stream k := rfl
@[simp] theorem draft_setCommits (l : List CommitEntry) (q : Port) : (s.setCommits l).draft q = s.draft q := rfl
@[simp] theorem routerPort_setCommits (l : List CommitEntry) (q : Port) : (s.setCommits l).routerPort q = s.routerPort q := rfl
@[simp] theorem remoteQueue_setCommits (l : List CommitEntry) (q : Port) : (s.setCommits l).remoteQueue q = s.remoteQueue q := rfl
@[simp] theorem entry_setCommits (l : List CommitEntry) (n : Nat) : (s.setCommits l).entry n = s.entry n := rfl
@[simp] theorem stamp_setCommits (l : List CommitEntry) : (s.setCommits l).stamp = s.stamp := rfl
@[simp] theorem attached_setCommits (l : List CommitEntry) (q : Port) : (s.setCommits l).attached q = s.attached q := rfl
@[simp] theorem idle_setCommits (l : List CommitEntry) : (s.setCommits l).idle = s.idle := rfl

/-! setSwitch -/

@[simp] theorem setSwitch_resetHigh (x : SwitchEngine) : (s.setSwitch x).resetHigh = s.resetHigh := rfl
@[simp] theorem setSwitch_ports (x : SwitchEngine) : (s.setSwitch x).ports = s.ports := rfl
@[simp] theorem setSwitch_streams (x : SwitchEngine) : (s.setSwitch x).streams = s.streams := rfl
@[simp] theorem setSwitch_drafts (x : SwitchEngine) : (s.setSwitch x).drafts = s.drafts := rfl
@[simp] theorem setSwitch_commits (x : SwitchEngine) : (s.setSwitch x).commits = s.commits := rfl
@[simp] theorem setSwitch_switch (x : SwitchEngine) : (s.setSwitch x).switch = x := rfl
@[simp] theorem setSwitch_chain (x : SwitchEngine) : (s.setSwitch x).chain = s.chain := rfl
@[simp] theorem setSwitch_cycle (x : SwitchEngine) : (s.setSwitch x).cycle = s.cycle := rfl
@[simp] theorem setSwitch_arbiter (x : SwitchEngine) : (s.setSwitch x).arbiter = s.arbiter := rfl
@[simp] theorem setSwitch_remote (x : SwitchEngine) : (s.setSwitch x).remote = s.remote := rfl
@[simp] theorem setSwitch_fetch (x : SwitchEngine) : (s.setSwitch x).fetch = s.fetch := rfl
@[simp] theorem setSwitch_router (x : SwitchEngine) : (s.setSwitch x).router = s.router := rfl
@[simp] theorem setSwitch_pending (x : SwitchEngine) : (s.setSwitch x).pending = s.pending := rfl
@[simp] theorem port_setSwitch (x : SwitchEngine) (q : Port) : (s.setSwitch x).port q = s.port q := rfl
@[simp] theorem stream_setSwitch (x : SwitchEngine) (k : Handle) : (s.setSwitch x).stream k = s.stream k := rfl
@[simp] theorem draft_setSwitch (x : SwitchEngine) (q : Port) : (s.setSwitch x).draft q = s.draft q := rfl
@[simp] theorem routerPort_setSwitch (x : SwitchEngine) (q : Port) : (s.setSwitch x).routerPort q = s.routerPort q := rfl
@[simp] theorem remoteQueue_setSwitch (x : SwitchEngine) (q : Port) : (s.setSwitch x).remoteQueue q = s.remoteQueue q := rfl
@[simp] theorem entry_setSwitch (x : SwitchEngine) (n : Nat) : (s.setSwitch x).entry n = s.entry n := rfl
@[simp] theorem stamp_setSwitch (x : SwitchEngine) : (s.setSwitch x).stamp = s.stamp := rfl
@[simp] theorem attached_setSwitch (x : SwitchEngine) (q : Port) : (s.setSwitch x).attached q = s.attached q := rfl

/-! setChain -/

@[simp] theorem setChain_resetHigh (x : ChainManager) : (s.setChain x).resetHigh = s.resetHigh := rfl
@[simp] theorem setChain_ports (x : ChainManager) : (s.setChain x).ports = s.ports := rfl
@[simp] theorem setChain_streams (x : ChainManager) : (s.setChain x).streams = s.streams := rfl
@[simp] theorem setChain_drafts (x : ChainManager) : (s.setChain x).drafts = s.drafts := rfl
@[simp] theorem setChain_commits (x : ChainManager) : (s.setChain x).commits = s.commits := rfl
@[simp] theorem setChain_switch (x : ChainManager) : (s.setChain x).switch = s.switch := rfl
@[simp] theorem setChain_chain (x : ChainManager) : (s.setChain x).chain = x := rfl
@[simp] theorem setChain_cycle (x : ChainManager) : (s.setChain x).cycle = s.cycle := rfl
@[simp] theorem setChain_arbiter (x : ChainManager) : (s.setChain x).arbiter = s.arbiter := rfl
@[simp] theorem setChain_remote (x : ChainManager) : (s.setChain x).remote = s.remote := rfl
@[simp] theorem setChain_fetch (x : ChainManager) : (s.setChain x).fetch = s.fetch := rfl
@[simp] theorem setChain_router (x : ChainManager) : (s.setChain x).router = s.router := rfl
@[simp] theorem setChain_pending (x : ChainManager) : (s.setChain x).pending = s.pending := rfl
@[simp] theorem port_setChain (x : ChainManager) (q : Port) : (s.setChain x).port q = s.port q := rfl
@[simp] theorem stream_setChain (x : ChainManager) (k : Handle) : (s.setChain x).stream k = s.stream k := rfl
@[simp] theorem draft_setChain (x : ChainManager) (q : Port) : (s.setChain x).draft q = s.draft q := rfl
@[simp] theorem routerPort_setChain (x : ChainManager) (q : Port) : (s.setChain x).routerPort q = s.routerPort q := rfl
@[simp] theorem remoteQueue_setChain (x : ChainManager) (q : Port) : (s.setChain x).remoteQueue q = s.remoteQueue q := rfl
@[simp] theorem stamp_setChain (x : ChainManager) : (s.setChain x).stamp = s.stamp := rfl
@[simp] theorem attached_setChain (x : ChainManager) (q : Port) : (s.setChain x).attached q = s.attached q := rfl
@[simp] theorem idle_setChain (x : ChainManager) : (s.setChain x).idle = s.idle := rfl

/-! setCycle -/

@[simp] theorem setCycle_resetHigh (x : CycleEngine) : (s.setCycle x).resetHigh = s.resetHigh := rfl
@[simp] theorem setCycle_ports (x : CycleEngine) : (s.setCycle x).ports = s.ports := rfl
@[simp] theorem setCycle_streams (x : CycleEngine) : (s.setCycle x).streams = s.streams := rfl
@[simp] theorem setCycle_drafts (x : CycleEngine) : (s.setCycle x).drafts = s.drafts := rfl
@[simp] theorem setCycle_commits (x : CycleEngine) : (s.setCycle x).commits = s.commits := rfl
@[simp] theorem setCycle_switch (x : CycleEngine) : (s.setCycle x).switch = s.switch := rfl
@[simp] theorem setCycle_chain (x : CycleEngine) : (s.setCycle x).chain = s.chain := rfl
@[simp] theorem setCycle_cycle (x : CycleEngine) : (s.setCycle x).cycle = x := rfl
@[simp] theorem setCycle_arbiter (x : CycleEngine) : (s.setCycle x).arbiter = s.arbiter := rfl
@[simp] theorem setCycle_remote (x : CycleEngine) : (s.setCycle x).remote = s.remote := rfl
@[simp] theorem setCycle_fetch (x : CycleEngine) : (s.setCycle x).fetch = s.fetch := rfl
@[simp] theorem setCycle_router (x : CycleEngine) : (s.setCycle x).router = s.router := rfl
@[simp] theorem setCycle_pending (x : CycleEngine) : (s.setCycle x).pending = s.pending := rfl
@[simp] theorem port_setCycle (x : CycleEngine) (q : Port) : (s.setCycle x).port q = s.port q := rfl
@[simp] theorem stream_setCycle (x : CycleEngine) (k : Handle) : (s.setCycle x).stream k = s.stream k := rfl
@[simp] theorem draft_setCycle (x : CycleEngine) (q : Port) : (s.setCycle x).draft q = s.draft q := rfl
@[simp] theorem routerPort_setCycle (x : CycleEngine) (q : Port) : (s.setCycle x).routerPort q = s.routerPort q := rfl
@[simp] theorem remoteQueue_setCycle (x : CycleEngine) (q : Port) : (s.setCycle x).remoteQueue q = s.remoteQueue q := rfl
@[simp] theorem entry_setCycle (x : CycleEngine) (n : Nat) : (s.setCycle x).entry n = s.entry n := rfl
@[simp] theorem attached_setCycle (x : CycleEngine) (q : Port) : (s.setCycle x).attached q = s.attached q := rfl
@[simp] theorem idle_setCycle (x : CycleEngine) : (s.setCycle x).idle = s.idle := rfl

/-! setArbiter -/

@[simp] theorem setArbiter_resetHigh (x : Arbiter) : (s.setArbiter x).resetHigh = s.resetHigh := rfl
@[simp] theorem setArbiter_ports (x : Arbiter) : (s.setArbiter x).ports = s.ports := rfl
@[simp] theorem setArbiter_streams (x : Arbiter) : (s.setArbiter x).streams = s.streams := rfl
@[simp] theorem setArbiter_drafts (x : Arbiter) : (s.setArbiter x).drafts = s.drafts := rfl
@[simp] theorem setArbiter_commits (x : Arbiter) : (s.setArbiter x).commits = s.commits := rfl
@[simp] theorem setArbiter_switch (x : Arbiter) : (s.setArbiter x).switch = s.switch := rfl
@[simp] theorem setArbiter_chain (x : Arbiter) : (s.setArbiter x).chain = s.chain := rfl
@[simp] theorem setArbiter_cycle (x : Arbiter) : (s.setArbiter x).cycle = s.cycle := rfl
@[simp] theorem setArbiter_arbiter (x : Arbiter) : (s.setArbiter x).arbiter = x := rfl
@[simp] theorem setArbiter_remote (x : Arbiter) : (s.setArbiter x).remote = s.remote := rfl
@[simp] theorem setArbiter_fetch (x : Arbiter) : (s.setArbiter x).fetch = s.fetch := rfl
@[simp] theorem setArbiter_router (x : Arbiter) : (s.setArbiter x).router = s.router := rfl
@[simp] theorem setArbiter_pending (x : Arbiter) : (s.setArbiter x).pending = s.pending := rfl
@[simp] theorem port_setArbiter (x : Arbiter) (q : Port) : (s.setArbiter x).port q = s.port q := rfl
@[simp] theorem stream_setArbiter (x : Arbiter) (k : Handle) : (s.setArbiter x).stream k = s.stream k := rfl
@[simp] theorem draft_setArbiter (x : Arbiter) (q : Port) : (s.setArbiter x).draft q = s.draft q := rfl
@[simp] theorem routerPort_setArbiter (x : Arbiter) (q : Port) : (s.setArbiter x).routerPort q = s.routerPort q := rfl
@[simp] theorem remoteQueue_setArbiter (x : Arbiter) (q : Port) : (s.setArbiter x).remoteQueue q = s.remoteQueue q := rfl
@[simp] theorem entry_setArbiter (x : Arbiter) (n : Nat) : (s.setArbiter x).entry n = s.entry n := rfl
@[simp] theorem stamp_setArbiter (x : Arbiter) : (s.setArbiter x).stamp = s.stamp := rfl
@[simp] theorem attached_setArbiter (x : Arbiter) (q : Port) : (s.setArbiter x).attached q = s.attached q := rfl
@[simp] theorem idle_setArbiter (x : Arbiter) : (s.setArbiter x).idle = s.idle := rfl

/-! setRemote -/

@[simp] theorem setRemote_resetHigh (x : RemoteUnit) : (s.setRemote x).resetHigh = s.resetHigh := rfl
@[simp] theorem setRemote_ports (x : RemoteUnit) : (s.setRemote x).ports = s.ports := rfl
@[simp] theorem setRemote_streams (x : RemoteUnit) : (s.setRemote x).streams = s.streams := rfl
@[simp] theorem setRemote_drafts (x : RemoteUnit) : (s.setRemote x).drafts = s.drafts := rfl
@[simp] theorem setRemote_commits (x : RemoteUnit) : (s.setRemote x).commits = s.commits := rfl
@[simp] theorem setRemote_switch (x : RemoteUnit) : (s.setRemote x).switch = s.switch := rfl
@[simp] theorem setRemote_chain (x : RemoteUnit) : (s.setRemote x).chain = s.chain := rfl
@[simp] theorem setRemote_cycle (x : RemoteUnit) : (s.setRemote x).cycle = s.cycle := rfl
@[simp] theorem setRemote_arbiter (x : RemoteUnit) : (s.setRemote x).arbiter = s.arbiter := rfl
@[simp] theorem setRemote_remote (x : RemoteUnit) : (s.setRemote x).remote = x := rfl
@[simp] theorem setRemote_fetch (x : RemoteUnit) : (s.setRemote x).fetch = s.fetch := rfl
@[simp] theorem setRemote_router (x : RemoteUnit) : (s.setRemote x).router = s.router := rfl
@[simp] theorem setRemote_pending (x : RemoteUnit) : (s.setRemote x).pending = s.pending := rfl
@[simp] theorem port_setRemote (x : RemoteUnit) (q : Port) : (s.setRemote x).port q = s.port q := rfl
@[simp] theorem stream_setRemote (x : RemoteUnit) (k : Handle) : (s.setRemote x).stream k = s.stream k := rfl
@[simp] theorem draft_setRemote (x : RemoteUnit) (q : Port) : (s.setRemote x).draft q = s.draft q := rfl
@[simp] theorem routerPort_setRemote (x : RemoteUnit) (q : Port) : (s.setRemote x).routerPort q = s.routerPort q := rfl
@[simp] theorem entry_setRemote (x : RemoteUnit) (n : Nat) : (s.setRemote x).entry n = s.entry n := rfl
@[simp] theorem stamp_setRemote (x : RemoteUnit) : (s.setRemote x).stamp = s.stamp := rfl
@[simp] theorem attached_setRemote (x : RemoteUnit) (q : Port) : (s.setRemote x).attached q = s.attached q := rfl
@[simp] theorem idle_setRemote (x : RemoteUnit) : (s.setRemote x).idle = s.idle := rfl

/-! setFetch -/

@[simp] theorem setFetch_resetHigh (x : FetchUnit) : (s.setFetch x).resetHigh = s.resetHigh := rfl
@[simp] theorem setFetch_ports (x : FetchUnit) : (s.setFetch x).ports = s.ports := rfl
@[simp] theorem setFetch_streams (x : FetchUnit) : (s.setFetch x).streams = s.streams := rfl
@[simp] theorem setFetch_drafts (x : FetchUnit) : (s.setFetch x).drafts = s.drafts := rfl
@[simp] theorem setFetch_commits (x : FetchUnit) : (s.setFetch x).commits = s.commits := rfl
@[simp] theorem setFetch_switch (x : FetchUnit) : (s.setFetch x).switch = s.switch := rfl
@[simp] theorem setFetch_chain (x : FetchUnit) : (s.setFetch x).chain = s.chain := rfl
@[simp] theorem setFetch_cycle (x : FetchUnit) : (s.setFetch x).cycle = s.cycle := rfl
@[simp] theorem setFetch_arbiter (x : FetchUnit) : (s.setFetch x).arbiter = s.arbiter := rfl
@[simp] theorem setFetch_remote (x : FetchUnit) : (s.setFetch x).remote = s.remote := rfl
@[simp] theorem setFetch_fetch (x : FetchUnit) : (s.setFetch x).fetch = x := rfl
@[simp] theorem setFetch_router (x : FetchUnit) : (s.setFetch x).router = s.router := rfl
@[simp] theorem setFetch_pending (x : FetchUnit) : (s.setFetch x).pending = s.pending := rfl
@[simp] theorem port_setFetch (x : FetchUnit) (q : Port) : (s.setFetch x).port q = s.port q := rfl
@[simp] theorem stream_setFetch (x : FetchUnit) (k : Handle) : (s.setFetch x).stream k = s.stream k := rfl
@[simp] theorem draft_setFetch (x : FetchUnit) (q : Port) : (s.setFetch x).draft q = s.draft q := rfl
@[simp] theorem routerPort_setFetch (x : FetchUnit) (q : Port) : (s.setFetch x).routerPort q = s.routerPort q := rfl
@[simp] theorem remoteQueue_setFetch (x : FetchUnit) (q : Port) : (s.setFetch x).remoteQueue q = s.remoteQueue q := rfl
@[simp] theorem entry_setFetch (x : FetchUnit) (n : Nat) : (s.setFetch x).entry n = s.entry n := rfl
@[simp] theorem stamp_setFetch (x : FetchUnit) : (s.setFetch x).stamp = s.stamp := rfl
@[simp] theorem attached_setFetch (x : FetchUnit) (q : Port) : (s.setFetch x).attached q = s.attached q := rfl
@[simp] theorem idle_setFetch (x : FetchUnit) : (s.setFetch x).idle = s.idle := rfl

/-! setRouter -/

@[simp] theorem setRouter_resetHigh (p : Port) (r : RouterPort) : (s.setRouter p r).resetHigh = s.resetHigh := rfl
@[simp] theorem setRouter_ports (p : Port) (r : RouterPort) : (s.setRouter p r).ports = s.ports := rfl
@[simp] theorem setRouter_streams (p : Port) (r : RouterPort) : (s.setRouter p r).streams = s.streams := rfl
@[simp] theorem setRouter_drafts (p : Port) (r : RouterPort) : (s.setRouter p r).drafts = s.drafts := rfl
@[simp] theorem setRouter_commits (p : Port) (r : RouterPort) : (s.setRouter p r).commits = s.commits := rfl
@[simp] theorem setRouter_switch (p : Port) (r : RouterPort) : (s.setRouter p r).switch = s.switch := rfl
@[simp] theorem setRouter_chain (p : Port) (r : RouterPort) : (s.setRouter p r).chain = s.chain := rfl
@[simp] theorem setRouter_cycle (p : Port) (r : RouterPort) : (s.setRouter p r).cycle = s.cycle := rfl
@[simp] theorem setRouter_arbiter (p : Port) (r : RouterPort) : (s.setRouter p r).arbiter = s.arbiter := rfl
@[simp] theorem setRouter_remote (p : Port) (r : RouterPort) : (s.setRouter p r).remote = s.remote := rfl
@[simp] theorem setRouter_fetch (p : Port) (r : RouterPort) : (s.setRouter p r).fetch = s.fetch := rfl
@[simp] theorem setRouter_router (p : Port) (r : RouterPort) : (s.setRouter p r).router = s.router.set p r := rfl
@[simp] theorem setRouter_pending (p : Port) (r : RouterPort) : (s.setRouter p r).pending = s.pending := rfl
@[simp] theorem port_setRouter (p : Port) (r : RouterPort) (q : Port) : (s.setRouter p r).port q = s.port q := rfl
@[simp] theorem stream_setRouter (p : Port) (r : RouterPort) (k : Handle) : (s.setRouter p r).stream k = s.stream k := rfl
@[simp] theorem draft_setRouter (p : Port) (r : RouterPort) (q : Port) : (s.setRouter p r).draft q = s.draft q := rfl
@[simp] theorem remoteQueue_setRouter (p : Port) (r : RouterPort) (q : Port) : (s.setRouter p r).remoteQueue q = s.remoteQueue q := rfl
@[simp] theorem entry_setRouter (p : Port) (r : RouterPort) (n : Nat) : (s.setRouter p r).entry n = s.entry n := rfl
@[simp] theorem stamp_setRouter (p : Port) (r : RouterPort) : (s.setRouter p r).stamp = s.stamp := rfl
@[simp] theorem attached_setRouter (p : Port) (r : RouterPort) (q : Port) : (s.setRouter p r).attached q = s.attached q := rfl
@[simp] theorem idle_setRouter (p : Port) (r : RouterPort) : (s.setRouter p r).idle = s.idle := rfl

/-! setRemoteQueue -/

@[simp] theorem setRemoteQueue_resetHigh (p : Port) (l : List RemoteRequest) : (s.setRemoteQueue p l).resetHigh = s.resetHigh := rfl
@[simp] theorem setRemoteQueue_ports (p : Port) (l : List RemoteRequest) : (s.setRemoteQueue p l).ports = s.ports := rfl
@[simp] theorem setRemoteQueue_streams (p : Port) (l : List RemoteRequest) : (s.setRemoteQueue p l).streams = s.streams := rfl
@[simp] theorem setRemoteQueue_drafts (p : Port) (l : List RemoteRequest) : (s.setRemoteQueue p l).drafts = s.drafts := rfl
@[simp] theorem setRemoteQueue_commits (p : Port) (l : List RemoteRequest) : (s.setRemoteQueue p l).commits = s.commits := rfl
@[simp] theorem setRemoteQueue_switch (p : Port) (l : List RemoteRequest) : (s.setRemoteQueue p l).switch = s.switch := rfl
@[simp] theorem setRemoteQueue_chain (p : Port) (l : List RemoteRequest) : (s.setRemoteQueue p l).chain = s.chain := rfl
@[simp] theorem setRemoteQueue_cycle (p : Port) (l : List RemoteRequest) : (s.setRemoteQueue p l).cycle = s.cycle := rfl
@[simp] theorem setRemoteQueue_arbiter (p : Port) (l : List RemoteRequest) : (s.setRemoteQueue p l).arbiter = s.arbiter := rfl
@[simp] theorem setRemoteQueue_remote (p : Port) (l : List RemoteRequest) : (s.setRemoteQueue p l).remote = { s.remote with queues := s.remote.queues.set p l } := rfl
@[simp] theorem setRemoteQueue_fetch (p : Port) (l : List RemoteRequest) : (s.setRemoteQueue p l).fetch = s.fetch := rfl
@[simp] theorem setRemoteQueue_router (p : Port) (l : List RemoteRequest) : (s.setRemoteQueue p l).router = s.router := rfl
@[simp] theorem setRemoteQueue_pending (p : Port) (l : List RemoteRequest) : (s.setRemoteQueue p l).pending = s.pending := rfl
@[simp] theorem port_setRemoteQueue (p : Port) (l : List RemoteRequest) (q : Port) : (s.setRemoteQueue p l).port q = s.port q := rfl
@[simp] theorem stream_setRemoteQueue (p : Port) (l : List RemoteRequest) (k : Handle) : (s.setRemoteQueue p l).stream k = s.stream k := rfl
@[simp] theorem draft_setRemoteQueue (p : Port) (l : List RemoteRequest) (q : Port) : (s.setRemoteQueue p l).draft q = s.draft q := rfl
@[simp] theorem routerPort_setRemoteQueue (p : Port) (l : List RemoteRequest) (q : Port) : (s.setRemoteQueue p l).routerPort q = s.routerPort q := rfl
@[simp] theorem entry_setRemoteQueue (p : Port) (l : List RemoteRequest) (n : Nat) : (s.setRemoteQueue p l).entry n = s.entry n := rfl
@[simp] theorem stamp_setRemoteQueue (p : Port) (l : List RemoteRequest) : (s.setRemoteQueue p l).stamp = s.stamp := rfl
@[simp] theorem attached_setRemoteQueue (p : Port) (l : List RemoteRequest) (q : Port) : (s.setRemoteQueue p l).attached q = s.attached q := rfl
@[simp] theorem idle_setRemoteQueue (p : Port) (l : List RemoteRequest) : (s.setRemoteQueue p l).idle = s.idle := rfl

/-! setOutstanding -/

@[simp] theorem setOutstanding_resetHigh (o : Option Outstanding) : (s.setOutstanding o).resetHigh = s.resetHigh := rfl
@[simp] theorem setOutstanding_ports (o : Option Outstanding) : (s.setOutstanding o).ports = s.ports := rfl
@[simp] theorem setOutstanding_streams (o : Option Outstanding) : (s.setOutstanding o).streams = s.streams := rfl
@[simp] theorem setOutstanding_drafts (o : Option Outstanding) : (s.setOutstanding o).drafts = s.drafts := rfl
@[simp] theorem setOutstanding_commits (o : Option Outstanding) : (s.setOutstanding o).commits = s.commits := rfl
@[simp] theorem setOutstanding_switch (o : Option Outstanding) : (s.setOutstanding o).switch = s.switch := rfl
@[simp] theorem setOutstanding_chain (o : Option Outstanding) : (s.setOutstanding o).chain = s.chain := rfl
@[simp] theorem setOutstanding_cycle (o : Option Outstanding) : (s.setOutstanding o).cycle = s.cycle := rfl
@[simp] theorem setOutstanding_arbiter (o : Option Outstanding) : (s.setOutstanding o).arbiter = s.arbiter := rfl
@[simp] theorem setOutstanding_remote (o : Option Outstanding) : (s.setOutstanding o).remote = { s.remote with outstanding := o } := rfl
@[simp] theorem setOutstanding_fetch (o : Option Outstanding) : (s.setOutstanding o).fetch = s.fetch := rfl
@[simp] theorem setOutstanding_router (o : Option Outstanding) : (s.setOutstanding o).router = s.router := rfl
@[simp] theorem setOutstanding_pending (o : Option Outstanding) : (s.setOutstanding o).pending = s.pending := rfl
@[simp] theorem port_setOutstanding (o : Option Outstanding) (q : Port) : (s.setOutstanding o).port q = s.port q := rfl
@[simp] theorem stream_setOutstanding (o : Option Outstanding) (k : Handle) : (s.setOutstanding o).stream k = s.stream k := rfl
@[simp] theorem draft_setOutstanding (o : Option Outstanding) (q : Port) : (s.setOutstanding o).draft q = s.draft q := rfl
@[simp] theorem routerPort_setOutstanding (o : Option Outstanding) (q : Port) : (s.setOutstanding o).routerPort q = s.routerPort q := rfl
@[simp] theorem remoteQueue_setOutstanding (o : Option Outstanding) (q : Port) : (s.setOutstanding o).remoteQueue q = s.remoteQueue q := rfl
@[simp] theorem entry_setOutstanding (o : Option Outstanding) (n : Nat) : (s.setOutstanding o).entry n = s.entry n := rfl
@[simp] theorem stamp_setOutstanding (o : Option Outstanding) : (s.setOutstanding o).stamp = s.stamp := rfl
@[simp] theorem attached_setOutstanding (o : Option Outstanding) (q : Port) : (s.setOutstanding o).attached q = s.attached q := rfl
@[simp] theorem idle_setOutstanding (o : Option Outstanding) : (s.setOutstanding o).idle = s.idle := rfl

/-! setEntry -/

@[simp] theorem setEntry_resetHigh (p : Nat) (e : ChainEntry) : (s.setEntry p e).resetHigh = s.resetHigh := rfl
@[simp] theorem setEntry_ports (p : Nat) (e : ChainEntry) : (s.setEntry p e).ports = s.ports := rfl
@[simp] theorem setEntry_streams (p : Nat) (e : ChainEntry) : (s.setEntry p e).streams = s.streams := rfl
@[simp] theorem setEntry_drafts (p : Nat) (e : ChainEntry) : (s.setEntry p e).drafts = s.drafts := rfl
@[simp] theorem setEntry_commits (p : Nat) (e : ChainEntry) : (s.setEntry p e).commits = s.commits := rfl
@[simp] theorem setEntry_switch (p : Nat) (e : ChainEntry) : (s.setEntry p e).switch = s.switch := rfl
@[simp] theorem setEntry_chain (p : Nat) (e : ChainEntry) : (s.setEntry p e).chain = s.chain.setEntry p e := rfl
@[simp] theorem setEntry_cycle (p : Nat) (e : ChainEntry) : (s.setEntry p e).cycle = s.cycle := rfl
@[simp] theorem setEntry_arbiter (p : Nat) (e : ChainEntry) : (s.setEntry p e).arbiter = s.arbiter := rfl
@[simp] theorem setEntry_remote (p : Nat) (e : ChainEntry) : (s.setEntry p e).remote = s.remote := rfl
@[simp] theorem setEntry_fetch (p : Nat) (e : ChainEntry) : (s.setEntry p e).fetch = s.fetch := rfl
@[simp] theorem setEntry_router (p : Nat) (e : ChainEntry) : (s.setEntry p e).router = s.router := rfl
@[simp] theorem setEntry_pending (p : Nat) (e : ChainEntry) : (s.setEntry p e).pending = s.pending := rfl
@[simp] theorem port_setEntry (p : Nat) (e : ChainEntry) (q : Port) : (s.setEntry p e).port q = s.port q := rfl
@[simp] theorem stream_setEntry (p : Nat) (e : ChainEntry) (k : Handle) : (s.setEntry p e).stream k = s.stream k := rfl
@[simp] theorem draft_setEntry (p : Nat) (e : ChainEntry) (q : Port) : (s.setEntry p e).draft q = s.draft q := rfl
@[simp] theorem routerPort_setEntry (p : Nat) (e : ChainEntry) (q : Port) : (s.setEntry p e).routerPort q = s.routerPort q := rfl
@[simp] theorem remoteQueue_setEntry (p : Nat) (e : ChainEntry) (q : Port) : (s.setEntry p e).remoteQueue q = s.remoteQueue q := rfl
@[simp] theorem stamp_setEntry (p : Nat) (e : ChainEntry) : (s.setEntry p e).stamp = s.stamp := rfl
@[simp] theorem attached_setEntry (p : Nat) (e : ChainEntry) (q : Port) : (s.setEntry p e).attached q = s.attached q := rfl
@[simp] theorem idle_setEntry (p : Nat) (e : ChainEntry) : (s.setEntry p e).idle = s.idle := rfl

/-! Readers of what an update wrote -/

theorem port_setPort (p q : Port) (c : PortContext) : (s.setPort p c).port q = if q = p then c else s.port q :=
  Tab.get_set s.ports p q c

@[simp] theorem port_setPort_same (p : Port) (c : PortContext) : (s.setPort p c).port p = c := Tab.get_set_same s.ports p c

theorem stream_setStream (h k : Handle) (r : Stream) : (s.setStream h r).stream k = if k = h then r else s.stream k :=
  Tab.get_set s.streams h k r

@[simp] theorem stream_setStream_same (h : Handle) (r : Stream) : (s.setStream h r).stream h = r :=
  Tab.get_set_same s.streams h r

theorem draft_setDraft (p q : Port) (d : Draft) : (s.setDraft p d).draft q = if q = p then d else s.draft q :=
  Tab.get_set s.drafts p q d

@[simp] theorem draft_setDraft_same (p : Port) (d : Draft) : (s.setDraft p d).draft p = d := Tab.get_set_same s.drafts p d

theorem routerPort_setRouter (p q : Port) (r : RouterPort) :
    (s.setRouter p r).routerPort q = if q = p then r else s.routerPort q :=
  Tab.get_set s.router p q r

@[simp] theorem routerPort_setRouter_same (p : Port) (r : RouterPort) : (s.setRouter p r).routerPort p = r :=
  Tab.get_set_same s.router p r

theorem remoteQueue_setRemoteQueue (p q : Port) (l : List RemoteRequest) :
    (s.setRemoteQueue p l).remoteQueue q = if q = p then l else s.remoteQueue q :=
  Tab.get_set s.remote.queues p q l

@[simp] theorem remoteQueue_setRemoteQueue_same (p : Port) (l : List RemoteRequest) :
    (s.setRemoteQueue p l).remoteQueue p = l :=
  Tab.get_set_same s.remote.queues p l

theorem attached_setPort (p q : Port) (c : PortContext) :
    (s.setPort p c).attached q = if q = p then c.state == .attached else s.attached q := by
  unfold attached
  rw [port_setPort]
  split <;> rfl

@[simp] theorem setPort_self (p : Port) : s.setPort p (s.port p) = s := by
  simp [setPort, port]

@[simp] theorem setDraft_self (p : Port) : s.setDraft p (s.draft p) = s := by
  simp [setDraft, draft]

@[simp] theorem setRouter_self (p : Port) : s.setRouter p (s.routerPort p) = s := by
  simp [setRouter, routerPort]

/-! The chain table -/

end Sys2Proof.Machine.State

namespace Sys2Proof.Machine.ChainManager

/-- The entry of a position after an entry is replaced. -/
theorem entry_setEntry (c : ChainManager) (p q : Nat) (e : ChainEntry) :
    (c.setEntry p e).entry q = if q = p ∧ 1 ≤ p ∧ p ≤ 15 then e else c.entry q := by
  unfold setEntry entry
  by_cases hp : 1 ≤ p ∧ p ≤ 15
  · by_cases hq : 1 ≤ q ∧ q ≤ 15
    · rw [dif_pos hp, dif_pos hq, dif_pos hq, Tab.get_set]
      by_cases hqp : q = p
      · subst hqp; simp [hp]
      · have h1 : (⟨q - 1, by omega⟩ : Fin 15) ≠ ⟨p - 1, by omega⟩ := by
          intro he; have := Fin.mk.inj he; omega
        rw [if_neg h1, if_neg (fun hh => hqp hh.1)]
    · rw [dif_neg hq, dif_neg hq, if_neg (by omega)]
  · rw [dif_neg hp, if_neg (fun hh => hp hh.2)]

@[simp] theorem setEntry_state (c : ChainManager) (p : Nat) (e : ChainEntry) : (c.setEntry p e).state = c.state := by
  unfold setEntry; split <;> rfl

@[simp] theorem setEntry_bringUp (c : ChainManager) (p : Nat) (e : ChainEntry) : (c.setEntry p e).bringUp = c.bringUp := by
  unfold setEntry; split <;> rfl

@[simp] theorem setEntry_breakCount (c : ChainManager) (p : Nat) (e : ChainEntry) : (c.setEntry p e).breakCount = c.breakCount := by
  unfold setEntry; split <;> rfl

@[simp] theorem setEntry_largestShort (c : ChainManager) (p : Nat) (e : ChainEntry) : (c.setEntry p e).largestShort = c.largestShort := by
  unfold setEntry; split <;> rfl

@[simp] theorem setEntry_probeCount (c : ChainManager) (p : Nat) (e : ChainEntry) : (c.setEntry p e).probeCount = c.probeCount := by
  unfold setEntry; split <;> rfl

@[simp] theorem setEntry_probePending (c : ChainManager) (p : Nat) (e : ChainEntry) : (c.setEntry p e).probePending = c.probePending := by
  unfold setEntry; split <;> rfl

@[simp] theorem setEntry_extendPending (c : ChainManager) (p : Nat) (e : ChainEntry) : (c.setEntry p e).extendPending = c.extendPending := by
  unfold setEntry; split <;> rfl

@[simp] theorem setEntry_resync (c : ChainManager) (p : Nat) (e : ChainEntry) : (c.setEntry p e).resync = c.resync := by
  unfold setEntry; split <;> rfl

@[simp] theorem setEntry_lastReach (c : ChainManager) (p : Nat) (e : ChainEntry) : (c.setEntry p e).lastReach = c.lastReach := by
  unfold setEntry; split <;> rfl

@[simp] theorem setEntry_lastMissing (c : ChainManager) (p : Nat) (e : ChainEntry) : (c.setEntry p e).lastMissing = c.lastMissing := by
  unfold setEntry; split <;> rfl

end Sys2Proof.Machine.ChainManager

namespace Sys2Proof.Machine.State

theorem entry_setEntry (s : State) (p q : Nat) (e : ChainEntry) :
    (s.setEntry p e).entry q = if q = p ∧ 1 ≤ p ∧ p ≤ 15 then e else s.entry q :=
  s.chain.entry_setEntry p q e

end Sys2Proof.Machine.State
end

