-- ==== Sys2Proof/Laws/Frames.lean ====
section
/-! SUPPORT. What each shared operation leaves: six nested frames, from "only the port queues change" to "only what a
trail can reach changes", and one lemma per operation at the tightest frame it keeps. -/

namespace Sys2Proof.Machine

/-! ### The frames -/

/-- Outside what a trail arrival can reach, nothing differs. -/
structure TrailFrame (s t : State) : Prop where
  resetHigh : t.resetHigh = s.resetHigh
  ports : t.ports = s.ports
  cycle : t.cycle = s.cycle
  arbiter : t.arbiter = s.arbiter
  pending : t.pending = s.pending

/-- Besides, the remote requests do not differ: what a batch formation can reach. -/
structure FormFrame (s t : State) : Prop extends TrailFrame s t where
  remote : t.remote = s.remote

/-- Besides, the commit queue and the Event Fetch Unit do not differ: what an abandonment can reach. -/
structure BatchFrame (s t : State) : Prop extends FormFrame s t where
  commits : t.commits = s.commits
  fetch : t.fetch = s.fetch

/-- Besides, the drafts and the Switch Engine do not differ: what a change of the chain table can reach. -/
structure ChainFrame (s t : State) : Prop extends BatchFrame s t where
  drafts : t.drafts = s.drafts
  switch : t.switch = s.switch

/-- Besides, the chain does not differ: what a recomputation of cause sets can reach. -/
structure StreamFrame (s t : State) : Prop extends ChainFrame s t where
  chain : t.chain = s.chain

/-- Besides, the streams do not differ: what a notice or an event can reach. -/
structure RouterFrame (s t : State) : Prop extends StreamFrame s t where
  streams : t.streams = s.streams

/-! ### They are reflexive and transitive, and folds keep them -/

theorem TrailFrame.refl (s : State) : TrailFrame s s := ⟨rfl, rfl, rfl, rfl, rfl⟩
theorem FormFrame.refl (s : State) : FormFrame s s := ⟨.refl s, rfl⟩
theorem BatchFrame.refl (s : State) : BatchFrame s s := ⟨.refl s, rfl, rfl⟩
theorem ChainFrame.refl (s : State) : ChainFrame s s := ⟨.refl s, rfl, rfl⟩
theorem StreamFrame.refl (s : State) : StreamFrame s s := ⟨.refl s, rfl⟩
theorem RouterFrame.refl (s : State) : RouterFrame s s := ⟨.refl s, rfl⟩

theorem TrailFrame.trans {s t u : State} (a : TrailFrame s t) (b : TrailFrame t u) : TrailFrame s u :=
  ⟨b.resetHigh.trans a.resetHigh, b.ports.trans a.ports, b.cycle.trans a.cycle, b.arbiter.trans a.arbiter,
    b.pending.trans a.pending⟩
theorem FormFrame.trans {s t u : State} (a : FormFrame s t) (b : FormFrame t u) : FormFrame s u :=
  ⟨a.toTrailFrame.trans b.toTrailFrame, b.remote.trans a.remote⟩
theorem BatchFrame.trans {s t u : State} (a : BatchFrame s t) (b : BatchFrame t u) : BatchFrame s u :=
  ⟨a.toFormFrame.trans b.toFormFrame, b.commits.trans a.commits, b.fetch.trans a.fetch⟩
theorem ChainFrame.trans {s t u : State} (a : ChainFrame s t) (b : ChainFrame t u) : ChainFrame s u :=
  ⟨a.toBatchFrame.trans b.toBatchFrame, b.drafts.trans a.drafts, b.switch.trans a.switch⟩
theorem StreamFrame.trans {s t u : State} (a : StreamFrame s t) (b : StreamFrame t u) : StreamFrame s u :=
  ⟨a.toChainFrame.trans b.toChainFrame, b.chain.trans a.chain⟩
theorem RouterFrame.trans {s t u : State} (a : RouterFrame s t) (b : RouterFrame t u) : RouterFrame s u :=
  ⟨a.toStreamFrame.trans b.toStreamFrame, b.streams.trans a.streams⟩

/-- A reflexive and transitive relation kept by every step of a fold is kept by the fold. -/
theorem foldl_frame {σ β : Type} {R : σ → σ → Prop} (refl : ∀ s, R s s) (trans : ∀ {a b c}, R a b → R b c → R a c)
    {f : σ → β → σ} (h : ∀ s x, R s (f s x)) (l : List β) (s : σ) : R s (l.foldl f s) := by
  induction l generalizing s with
  | nil => exact refl s
  | cons x l ih => exact trans (h s x) (ih (f s x))

theorem RouterFrame.foldl {β : Type} {f : State → β → State} (h : ∀ s x, RouterFrame s (f s x)) (l : List β) (s : State) :
    RouterFrame s (l.foldl f s) := foldl_frame .refl .trans h l s
theorem StreamFrame.foldl {β : Type} {f : State → β → State} (h : ∀ s x, StreamFrame s (f s x)) (l : List β) (s : State) :
    StreamFrame s (l.foldl f s) := foldl_frame .refl .trans h l s
theorem ChainFrame.foldl {β : Type} {f : State → β → State} (h : ∀ s x, ChainFrame s (f s x)) (l : List β) (s : State) :
    ChainFrame s (l.foldl f s) := foldl_frame .refl .trans h l s
theorem BatchFrame.foldl {β : Type} {f : State → β → State} (h : ∀ s x, BatchFrame s (f s x)) (l : List β) (s : State) :
    BatchFrame s (l.foldl f s) := foldl_frame .refl .trans h l s
theorem TrailFrame.foldl {β : Type} {f : State → β → State} (h : ∀ s x, TrailFrame s (f s x)) (l : List β) (s : State) :
    TrailFrame s (l.foldl f s) := foldl_frame .refl .trans h l s

/-! ### One update -/

theorem setRouter_frame (s : State) (p : Port) (r : RouterPort) : RouterFrame s (s.setRouter p r) :=
  ⟨⟨⟨⟨⟨⟨rfl, rfl, rfl, rfl, rfl⟩, rfl⟩, rfl, rfl⟩, rfl, rfl⟩, rfl⟩, rfl⟩
theorem setStream_frame (s : State) (h : Handle) (r : Stream) : StreamFrame s (s.setStream h r) :=
  ⟨⟨⟨⟨⟨rfl, rfl, rfl, rfl, rfl⟩, rfl⟩, rfl, rfl⟩, rfl, rfl⟩, rfl⟩
theorem streams_frame (s : State) (x : Tab Stream 32) : StreamFrame s { s with streams := x } :=
  ⟨⟨⟨⟨⟨rfl, rfl, rfl, rfl, rfl⟩, rfl⟩, rfl, rfl⟩, rfl, rfl⟩, rfl⟩
theorem setChain_frame (s : State) (x : ChainManager) : ChainFrame s (s.setChain x) :=
  ⟨⟨⟨⟨rfl, rfl, rfl, rfl, rfl⟩, rfl⟩, rfl, rfl⟩, rfl, rfl⟩
theorem setEntry_frame (s : State) (p : Nat) (e : ChainEntry) : ChainFrame s (s.setEntry p e) := setChain_frame s _
theorem setDraft_frame (s : State) (p : Port) (d : Draft) : BatchFrame s (s.setDraft p d) :=
  ⟨⟨⟨rfl, rfl, rfl, rfl, rfl⟩, rfl⟩, rfl, rfl⟩
theorem setSwitch_frame (s : State) (x : SwitchEngine) : BatchFrame s (s.setSwitch x) :=
  ⟨⟨⟨rfl, rfl, rfl, rfl, rfl⟩, rfl⟩, rfl, rfl⟩
theorem setCommits_frame (s : State) (l : List CommitEntry) : FormFrame s (s.setCommits l) := ⟨⟨rfl, rfl, rfl, rfl, rfl⟩, rfl⟩
theorem setFetch_frame (s : State) (x : FetchUnit) : FormFrame s (s.setFetch x) := ⟨⟨rfl, rfl, rfl, rfl, rfl⟩, rfl⟩
theorem setRemote_frame (s : State) (x : RemoteUnit) : TrailFrame s (s.setRemote x) := ⟨rfl, rfl, rfl, rfl, rfl⟩
theorem setRemoteQueue_frame (s : State) (p : Port) (l : List RemoteRequest) : TrailFrame s (s.setRemoteQueue p l) :=
  setRemote_frame s _
theorem setOutstanding_frame (s : State) (o : Option Outstanding) : TrailFrame s (s.setOutstanding o) := setRemote_frame s _

/-! ### The Router (R155 to R157) -/

theorem notify_frame (s : State) (p : Port) (n : Notice) : RouterFrame s (s.notify p n) := by
  unfold State.notify; split
  · exact setRouter_frame s p _
  · exact .refl s

theorem notifySession_frame (s : State) (p : Port) (k : Nat) (n : Notice) : RouterFrame s (s.notifySession p k n) := by
  unfold State.notifySession; split
  · exact notify_frame s p n
  · exact .refl s

theorem notifyCommit_frame (d : Draft) (c : Port × Nat) (n : Notice) (s : State) : RouterFrame s (s.notifyCommit d c n) := by
  unfold State.notifyCommit; split
  · exact .refl s
  · exact notifySession_frame s _ _ n

theorem notifyOwner_frame (s : State) (r : Stream) (n : Notice) : RouterFrame s (s.notifyOwner r n) := by
  unfold State.notifyOwner; split
  · split
    · exact notify_frame s _ n
    · exact .refl s
  · exact .refl s

theorem notifyOwner?_frame (s : State) (r : Stream) (n : Option Notice) : RouterFrame s (s.notifyOwner? r n) := by
  unfold State.notifyOwner?; split
  · exact notifyOwner_frame s r _
  · exact .refl s

theorem offer_frame (e : Event) (s : State) (p : Port) : RouterFrame s (s.offer e p) := by
  unfold State.offer; split
  · exact setRouter_frame s p _
  · exact .refl s

theorem raise_frame (s : State) (e : Event) : RouterFrame s (s.raise e) := .foldl (offer_frame e) allPorts s

theorem raise?_frame (s : State) (e : Option Event) : RouterFrame s (s.raise? e) := by
  unfold State.raise?; split
  · exact raise_frame s _
  · exact .refl s

theorem notifyAll_frame (s : State) (n : Notice) : RouterFrame s (s.notifyAll n) :=
  .foldl (fun s p => notify_frame s p n) allPorts s

theorem announceSettings_frame (s : State) (ks : List Setting) (x : Settings) : RouterFrame s (s.announceSettings ks x) :=
  .foldl (fun s _ => notifyAll_frame s _) ks s

theorem failRemote_frame (p : Port) (w : RemoteReason) (s : State) (r : RemoteRequest) : RouterFrame s (s.failRemote p w r) :=
  notifySession_frame s p _ _

theorem remoteResult_frame (s : State) (p : Port) (r : RemoteRequest) (n : Notice) : RouterFrame s (s.remoteResult p r n) :=
  notifySession_frame s p _ _

/-! ### Streams (R4, R15, R16) -/

theorem recomputeStream_frame (s : State) (h : Handle) : StreamFrame s (s.recomputeStream h) := by
  unfold State.recomputeStream
  dsimp only
  split
  · exact .refl s
  · exact (setStream_frame s h _).trans (notifyOwner?_frame _ _ _).toStreamFrame

theorem recompute_frame (s : State) : StreamFrame s s.recompute := .foldl recomputeStream_frame allHandles s

theorem setStale_frame (b : Bool) (s : State) (p : Nat) : ChainFrame s (s.setStale b p) := by
  unfold State.setStale; split
  · exact .refl s
  · exact (setEntry_frame s p _).trans (recompute_frame _).toChainFrame

theorem setOutOfStep_frame (s : State) (p : Nat) : ChainFrame s (s.setOutOfStep p) := by
  unfold State.setOutOfStep; split
  · exact .refl s
  · exact (setEntry_frame s p _).trans (recompute_frame _).toChainFrame

theorem freeOpened_frame (s : State) (es : List DraftEntry) : StreamFrame s (s.freeOpened es) :=
  .foldl (fun s h => setStream_frame s h _) _ s

theorem discardDraft_frame (s : State) (p : Port) : BatchFrame s (s.discardDraft p) :=
  (freeOpened_frame s _).toBatchFrame.trans (setDraft_frame _ p _)

/-! ### Batches (R58 to R62) -/

theorem reject_frame (s : State) (x : CommitEntry × Nat × FailReason) : BatchFrame s (s.reject x) :=
  (setDraft_frame s _ _).trans (notifySession_frame _ _ _ _).toBatchFrame

theorem completeCommit_frame (s : State) (c : CommitEntry) : BatchFrame s (s.completeCommit c) :=
  (setDraft_frame s _ _).trans (notifySession_frame _ _ _ _).toBatchFrame

theorem takeSettings_frame (x : Settings) (s : State) : FormFrame s (s.takeSettings x) := by
  unfold State.takeSettings
  dsimp only
  split
  · exact (setSwitch_frame s _).toFormFrame
  · exact (setSwitch_frame s _).toFormFrame.trans (setFetch_frame _ _)

theorem completeSettings_frame (v : Validation) (s : State) : FormFrame s (s.completeSettings v) := by
  unfold State.completeSettings
  exact ((takeSettings_frame _ s).trans (BatchFrame.foldl completeCommit_frame _ _).toFormFrame).trans
    (announceSettings_frame _ _ _).toFormFrame

theorem acceptOp_frame (s : State) (op : DraftEntry) : StreamFrame s (s.acceptOp op) := by
  unfold State.acceptOp; split
  · exact setStream_frame s _ _
  · exact .refl s

theorem acceptCommit_frame (s : State) (c : CommitEntry) : BatchFrame s (s.acceptCommit c) := by
  unfold State.acceptCommit
  exact (setDraft_frame s _ _).trans (StreamFrame.foldl acceptOp_frame _ _).toBatchFrame

theorem markStales_frame (ps : List Nat) (s : State) : ChainFrame s (s.markStales ps) := .foldl (setStale_frame true) ps s

theorem handOver_frame (v : Validation) (s : State) : BatchFrame s (s.handOver v) := by
  unfold State.handOver
  dsimp only
  refine BatchFrame.trans ?_ (setSwitch_frame _ _)
  refine BatchFrame.trans ?_ (markStales_frame _ _).toBatchFrame
  exact (StreamFrame.foldl (f := State.forceOut) (fun s h => setStream_frame s h _) _ _).toBatchFrame.trans
    (BatchFrame.foldl acceptCommit_frame _ _)

theorem formBatch_frame (s : State) : FormFrame s s.formBatch := by
  unfold State.formBatch
  dsimp only
  have h1 : FormFrame s (s.validate.rejected.foldl State.reject (s.setCommits [])) :=
    (setCommits_frame s []).trans (BatchFrame.foldl reject_frame _ _).toFormFrame
  split
  · exact h1.trans (handOver_frame _ _).toFormFrame
  · split
    · exact h1
    · exact h1.trans (completeSettings_frame _ _)

theorem formIfDue_frame (s : State) : FormFrame s s.formIfDue := by
  unfold State.formIfDue; split
  · exact formBatch_frame s
  · exact .refl s

/-! ### The switch (R75 to R81) -/

theorem switchResults_frame (old : State) (b : Batch) (s : State) : RouterFrame s (State.switchResults old b s) := by
  unfold State.switchResults
  dsimp only
  refine RouterFrame.trans ?_ (raise_frame _ _)
  refine RouterFrame.trans ?_ (announceSettings_frame _ _ _)
  refine RouterFrame.trans ?_ (RouterFrame.foldl (fun s h => notifyOwner?_frame s _ _) _ _)
  exact RouterFrame.foldl (fun s c => notifyCommit_frame _ _ _ s) _ _

theorem switchChanges_frame (b : Batch) (s : State) : FormFrame s (s.switchChanges b) := by
  unfold State.switchChanges
  dsimp only
  refine FormFrame.trans ?_ (BatchFrame.foldl (f := State.endDraft) (fun s c => setDraft_frame s _ _) _ _).toFormFrame
  refine FormFrame.trans ?_ (streams_frame _ _).toFormFrame
  exact (setSwitch_frame s _).toFormFrame.trans (takeSettings_frame _ _)

theorem switchCycle_frame (s : State) : FormFrame s s.switchCycle := by
  unfold State.switchCycle; split
  · split
    · exact (switchChanges_frame _ s).trans (switchResults_frame _ _ _).toFormFrame
    · exact .refl s
  · exact .refl s

theorem returnDraft_frame (s : State) (c : Port × Nat) : BatchFrame s (s.returnDraft c) := by
  unfold State.returnDraft; split
  · exact discardDraft_frame s _
  · exact setDraft_frame s _ _

theorem unmarkStales_frame (ps : List Nat) (s : State) : ChainFrame s (s.unmarkStales ps) :=
  .foldl (setStale_frame false) ps s

theorem undoBatch_frame (b : Batch) (s : State) : BatchFrame s (s.undoBatch b) := by
  unfold State.undoBatch
  dsimp only
  refine BatchFrame.trans ?_ (setSwitch_frame _ _)
  refine BatchFrame.trans ?_ (BatchFrame.foldl returnDraft_frame _ _)
  exact (streams_frame s _).toBatchFrame.trans (unmarkStales_frame _ _).toBatchFrame

theorem abandon_frame (w : AbandonReason) (s : State) : BatchFrame s (s.abandon w) := by
  unfold State.abandon; split
  · exact (undoBatch_frame _ s).trans (RouterFrame.foldl (fun s c => notifyCommit_frame _ _ _ s) _ _).toBatchFrame
  · exact .refl s

theorem abandonOnLoss_frame (ps : List Nat) (s : State) : BatchFrame s (s.abandonOnLoss ps) := by
  unfold State.abandonOnLoss; split
  · exact abandon_frame _ s
  · exact .refl s

theorem markUnsettled_frame (s : State) (t : Transfer) : ChainFrame s (s.markUnsettled t) := by
  unfold State.markUnsettled; split
  · split
    · exact setStale_frame true s _
    · exact setOutOfStep_frame s _
  · exact .refl s

theorem markAllUnsettled_frame (s : State) : ChainFrame s s.markAllUnsettled := .foldl markUnsettled_frame _ s

theorem settleEnd_frame (s : State) : BatchFrame s s.settleEnd := by
  unfold State.settleEnd
  exact (markAllUnsettled_frame s).toBatchFrame.trans (setSwitch_frame _ _)

theorem readSwitch_frame (a : Arrival) (s : State) : BatchFrame s (s.readSwitch a) := by
  unfold State.readSwitch
  dsimp only
  split
  · exact .refl s
  · unfold State.readPrepare
    split
    · exact .refl s
    · split
      · exact abandon_frame _ s
      · exact setSwitch_frame s _
  · exact setSwitch_frame s _
  · split
    · exact (setSwitch_frame s _).trans (settleEnd_frame _)
    · exact setSwitch_frame s _

/-! ### The hops (R132) -/

theorem reportHops_frame (old s : State) : StreamFrame s (State.reportHops old s) := by
  unfold State.reportHops
  dsimp only
  have h1 : RouterFrame s (positions.foldl (fun s p => s.raise? (hopEvent p (old.entry p).hopState (s.entry p).hopState)) s) :=
    .foldl (fun s p => raise?_frame s _) positions s
  split
  · exact h1.toStreamFrame.trans (recompute_frame _)
  · exact h1.toStreamFrame

theorem gradeHop_frame (t : Trail) (m : Nat) (s : State) (p : Nat) : ChainFrame s (s.gradeHop t m p) := by
  unfold State.gradeHop; split
  · exact setEntry_frame s p _
  · exact .refl s

theorem readHops_frame (a : Arrival) (s : State) : ChainFrame s (s.readHops a) :=
  (ChainFrame.foldl (gradeHop_frame _ _) positions s).trans (reportHops_frame _ _).toChainFrame

theorem recoverHop_frame (p : Nat) (s : State) : ChainFrame s (s.recoverHop p) :=
  (setEntry_frame s p _).trans (reportHops_frame _ _).toChainFrame

/-! ### Remote access and event fetch -/

theorem loseRemote_frame (ps : List Nat) (s : State) (p : Port) : TrailFrame s (s.loseRemote ps p) := by
  unfold State.loseRemote
  exact (setRemoteQueue_frame s p _).trans (RouterFrame.foldl (failRemote_frame p _) _ _).toTrailFrame

theorem answerRemote_frame (a : Arrival) (o : Outstanding) (s : State) : TrailFrame s (s.answerRemote a o) := by
  unfold State.answerRemote; split
  · exact (remoteResult_frame s _ _ _).toTrailFrame
  · split
    · exact setRemoteQueue_frame s _ _
    · exact (remoteResult_frame s _ _ _).toTrailFrame

theorem readRemote_frame (a : Arrival) (s : State) : TrailFrame s (s.readRemote a) := by
  unfold State.readRemote; split
  · split
    · exact setOutstanding_frame s _
    · exact (setOutstanding_frame s _).trans (answerRemote_frame a _ _)
  · exact .refl s

theorem takeEvent_frame (p : Nat) (ans : Option Answer) (s : State) : FormFrame s (s.takeEvent p ans) := by
  unfold State.takeEvent
  split
  · dsimp only
    split
    · split
      · exact (setFetch_frame s _).trans (raise_frame _ _).toFormFrame
      · exact setFetch_frame s _
    · exact setFetch_frame s _
  · exact .refl s

theorem answerFetch_frame (a : Arrival) (s : State) : FormFrame s (s.answerFetch a) := by
  unfold State.answerFetch; split
  · exact (setFetch_frame s _).trans (takeEvent_frame _ _ _)
  · exact .refl s

theorem readPending_frame (t : Trail) (s : State) : FormFrame s (s.readPending t) := by
  unfold State.readPending; split
  · exact setFetch_frame s _
  · exact .refl s

theorem readFetch_frame (a : Arrival) (s : State) : FormFrame s (s.readFetch a) :=
  (answerFetch_frame a s).trans (readPending_frame _ _)

/-! ### The chain -/

theorem reportLosses_frame (ps : List Nat) (s : State) : TrailFrame s (s.reportLosses ps) := by
  unfold State.reportLosses
  refine TrailFrame.trans ?_ (TrailFrame.foldl (loseRemote_frame ps) _ _)
  exact ((recompute_frame s).toTrailFrame.trans (abandonOnLoss_frame ps _).toTrailFrame).trans
    (setFetch_frame _ _).toTrailFrame

theorem losePositions_frame (ps : List Nat) (s : State) : TrailFrame s (s.losePositions ps) := by
  unfold State.losePositions; split
  · exact .refl s
  · refine TrailFrame.trans ?_ (reportLosses_frame ps _)
    exact (setChain_frame s _).toTrailFrame.trans (RouterFrame.foldl (fun s p => raise_frame s _) _ _).toTrailFrame

theorem breakChain_frame (s : State) : TrailFrame s s.breakChain :=
  (setChain_frame s _).toTrailFrame.trans (losePositions_frame _ _)

theorem moveEntry_frame (s : State) (p : Nat) : ChainFrame s (s.moveEntry p) := by
  unfold State.moveEntry
  split
  · exact (setEntry_frame s p _).trans ((raise_frame _ _).toChainFrame.trans (recompute_frame _).toChainFrame)
  · split
    · exact (setEntry_frame s p _).trans (recompute_frame _).toChainFrame
    · exact .refl s

theorem moveEntries_frame (s : State) : ChainFrame s s.moveEntries := .foldl moveEntry_frame positions s

theorem ensureResync_frame (s : State) : ChainFrame s s.ensureResync := setChain_frame s _

theorem settleWork_frame (m : Meet) (s : State) : FormFrame s (s.settleWork m) := by
  unfold State.settleWork
  split
  · exact ((moveEntries_frame s).toFormFrame.trans (formIfDue_frame _)).trans (ensureResync_frame _).toFormFrame
  · exact ((formIfDue_frame s).trans (moveEntries_frame _).toFormFrame).trans (ensureResync_frame _).toFormFrame

theorem applyBreak_frame (a : Arrival) (m : Meet) (s : State) : TrailFrame s (s.applyBreak a m) := by
  unfold State.applyBreak
  dsimp only
  split
  · exact ((setChain_frame s _).toTrailFrame.trans (breakChain_frame _)).trans (settleWork_frame m _).toTrailFrame
  · exact (setChain_frame s _).toTrailFrame

theorem readEntries_frame (a : Arrival) (s : State) : ChainFrame s (s.readEntries a) :=
  (setChain_frame s _).trans (moveEntries_frame _)

theorem raiseRecompute_frame (s : State) (e : Event) : StreamFrame s (s.raise e).recompute :=
  (raise_frame s e).toStreamFrame.trans (recompute_frame _)

theorem enrollInBringUp_frame (p : Nat) (i : Identity) (s : State) : ChainFrame s (s.enrollInBringUp p i) :=
  (setChain_frame s _).trans (raiseRecompute_frame _ _).toChainFrame

theorem enrollByProbe_frame (p : Nat) (i : Identity) (s : State) : ChainFrame s (s.enrollByProbe p i) := by
  unfold State.enrollByProbe
  split
  · split
    · exact (setChain_frame s _).trans (raiseRecompute_frame _ _).toChainFrame
    · exact (setChain_frame s ((s.chain.setEntry p ((s.entry p).joinNew i)).endChanged)).trans
        ((streams_frame _ _).toChainFrame.trans
          ((raise_frame _ _).toChainFrame.trans (raiseRecompute_frame _ _).toChainFrame))
  · exact (setChain_frame s _).trans (raiseRecompute_frame _ _).toChainFrame

theorem resyncDone_frame (p : Nat) (s : State) : ChainFrame s (s.resyncDone p) :=
  (setChain_frame s _).trans (raiseRecompute_frame _ _).toChainFrame

theorem resyncFailed_frame (p : Nat) (s : State) : TrailFrame s (s.resyncFailed p) := by
  unfold State.resyncFailed; split
  · exact (setChain_frame s _).toTrailFrame
  · exact losePositions_frame _ s

theorem answerSeek_frame (p : Nat) (ans : Option Answer) (s : State) : ChainFrame s (s.answerSeek p ans) := by
  unfold State.answerSeek
  split
  · split
    · split
      · exact enrollInBringUp_frame _ _ s
      · split
        · exact setChain_frame s _
        · exact .refl s
    · exact .refl s
  · exact .refl s

theorem answerProbe_frame (p : Nat) (ans : Option Answer) (s : State) : ChainFrame s (s.answerProbe p ans) := by
  unfold State.answerProbe
  split
  · split
    · exact enrollByProbe_frame _ _ s
    · exact .refl s
  · exact .refl s

theorem answerExtend_frame (p : Nat) (ans : Option Answer) (s : State) : ChainFrame s (s.answerExtend p ans) := by
  unfold State.answerExtend; split
  · exact setChain_frame s _
  · exact .refl s

theorem answerResync_frame (p : Nat) (ans : Option Answer) (s : State) : TrailFrame s (s.answerResync p ans) := by
  unfold State.answerResync
  split
  · split
    · split
      · exact (resyncDone_frame p s).toTrailFrame
      · exact resyncFailed_frame p s
    · exact .refl s
  · exact .refl s

theorem answerChain_frame (a : Arrival) (s : State) : TrailFrame s (s.answerChain a) := by
  unfold State.answerChain
  split
  · exact (answerSeek_frame _ _ s).toTrailFrame
  · exact (answerExtend_frame _ _ s).toTrailFrame
  · exact answerResync_frame _ _ s
  · exact (answerProbe_frame _ _ s).toTrailFrame
  all_goals exact .refl s

theorem readChain_frame (a : Arrival) (m : Meet) (s : State) : TrailFrame s (s.readChain a m) := by
  unfold State.readChain
  refine TrailFrame.trans ?_ (answerChain_frame a _)
  refine TrailFrame.trans ?_ (readEntries_frame a _).toTrailFrame
  exact (setChain_frame s _).toTrailFrame.trans (applyBreak_frame a m _)

/-! ### The trail arrival -/

theorem runReader_frame (a : Arrival) (m : Meet) (s : State) (r : Reader) : TrailFrame s (s.runReader a m r) := by
  unfold State.runReader
  cases r
  · exact (readHops_frame a s).toTrailFrame.trans (settleWork_frame m _).toTrailFrame
  · exact (readChain_frame a m s).trans (settleWork_frame m _).toTrailFrame
  · exact (readSwitch_frame a s).toTrailFrame.trans (settleWork_frame m _).toTrailFrame
  · exact (readFetch_frame a s).toTrailFrame.trans (settleWork_frame m _).toTrailFrame
  · exact (readRemote_frame a s).trans (settleWork_frame m _).toTrailFrame

theorem readers_frame (a : Arrival) (m : Meet) (l : List Reader) (s : State) :
    TrailFrame s (l.foldl (State.runReader a m) s) :=
  .foldl (runReader_frame a m) l s

end Sys2Proof.Machine
end

