-- ==== Sys2Proof/Laws/Requests.lean ====
section
/-! SUPPORT. What a request frame can do: what every owner keeps, and the outcomes of `State.requestThen`. -/

namespace Sys2Proof.Machine

/-! ### The response in the slot (R171, R174, R176) -/

theorem accepts_iff (st : Status) : st.accepts = true ↔ st = .ok ∨ st = .accepted := by
  cases st <;> simp [Status.accepts]

/-- After OK or ACCEPTED: the response in the slot, the lease renewed. -/
theorem respond_accepting (c : PortContext) (r : Response) (h : r.status.accepts = true) :
    c.respond r = c.accepting r := by
  unfold PortContext.respond PortContext.accepting PortContext.renewed fullLease
  by_cases h1 : c.state = .attached ∧ 1 ≤ c.lease
  · have : ¬ c.lease = 0 := by omega
    simp [h, h1, this, Config.leaseUnit]
  · simp only [h, true_and, h1, if_false]

/-- After any other status: the response in the slot and nothing else. -/
theorem respond_refusing (c : PortContext) (r : Response) (h : r.status.accepts = false) :
    c.respond r = { c with slot := some r } := by
  simp [PortContext.respond, PortContext.renewed, h]

/-! ### What every owner keeps -/

/-- What an owner's answer `x` to a request of port `p` on `s` can be: a refusal changed nothing; the reset line, the
waiting commands, the cycle counter and the other ports stay; the slot and the overrun flag are not the owner's. -/
structure Owned (s : State) (p : Port) (x : State × Response) : Prop where
  refused : x.2.status.accepts = false → x.1 = s
  resetHigh : x.1.resetHigh = s.resetHigh
  pending : x.1.pending = s.pending
  counter : x.1.cycle.counter = s.cycle.counter
  others : ∀ q, q ≠ p → x.1.port q = s.port q
  slot : (x.1.port p).slot = (s.port p).slot
  overrun : (x.1.port p).overrun = (s.port p).overrun

/-- An answer that changes nothing. -/
theorem Owned.same (s : State) (p : Port) (r : Response) : Owned s p (s, r) :=
  ⟨fun _ => rfl, rfl, rfl, rfl, fun _ _ => rfl, rfl, rfl⟩

/-- An accepted request that stays within a trail's reach. -/
theorem Owned.of_frame {s t : State} {p : Port} {r : Response} (f : TrailFrame s t) (h : r.status.accepts = true) :
    Owned s p (t, r) := by
  refine ⟨fun h' => ?_, f.resetHigh, f.pending, by rw [f.cycle], fun q _ => ?_, ?_, ?_⟩
  · simp [h] at h'
  all_goals simp [State.port, f.ports]

theorem stage_frame (p : Port) (e : DraftEntry) (s : State) : BatchFrame s (s.stage p e) := setDraft_frame s p _

theorem takeDraftOpen_owned (p : Port) (a : OpenArgs) (s : State) : Owned s p (s.takeDraftOpen p a) := by
  unfold State.takeDraftOpen
  repeat' split
  all_goals first
    | exact .same s p _
    | exact .of_frame ((setStream_frame s _ _).toTrailFrame.trans (stage_frame p _ _).toTrailFrame) rfl

theorem takeDraftClose_owned (p : Port) (a : Byte) (s : State) : Owned s p (s.takeDraftClose p a) := by
  unfold State.takeDraftClose
  repeat' split
  all_goals first | exact .same s p _ | exact .of_frame (stage_frame p _ _).toTrailFrame rfl

theorem takeDraftResize_owned (p : Port) (a : ResizeArgs) (s : State) : Owned s p (s.takeDraftResize p a) := by
  unfold State.takeDraftResize
  repeat' split
  all_goals first | exact .same s p _ | exact .of_frame (stage_frame p _ _).toTrailFrame rfl

theorem takeDraftSet_owned (p : Port) (a : SetArgs) (s : State) : Owned s p (s.takeDraftSet p a) := by
  unfold State.takeDraftSet
  repeat' split
  all_goals first | exact .same s p _ | exact .of_frame (stage_frame p _ _).toTrailFrame rfl

theorem takeDraftDrop_owned (p : Port) (a : Byte) (s : State) : Owned s p (s.takeDraftDrop p a) := by
  unfold State.takeDraftDrop
  repeat' split
  all_goals first
    | exact .same s p _
    | exact .of_frame ((freeOpened_frame s _).toTrailFrame.trans (setDraft_frame _ _ _).toTrailFrame) rfl

theorem takeDraftClear_owned (p : Port) (a : Unit) (s : State) : Owned s p (s.takeDraftClear p a) := by
  unfold State.takeDraftClear
  repeat' split
  all_goals first | exact .same s p _ | exact .of_frame (discardDraft_frame s _).toTrailFrame rfl

theorem takeDraftView_owned (p : Port) (a : Byte) (s : State) : Owned s p (s.takeDraftView p a) := by
  unfold State.takeDraftView
  split <;> exact .same s p _

theorem takeCommit_owned (p : Port) (a : Byte) (s : State) : Owned s p (s.takeCommit p a) := by
  unfold State.takeCommit
  repeat' split
  all_goals first
    | exact .same s p _
    | exact .of_frame ((setDraft_frame s _ _).toTrailFrame.trans (setCommits_frame _ _).toTrailFrame) rfl

theorem takeWithdraw_owned (p : Port) (a : Unit) (s : State) : Owned s p (s.takeWithdraw p a) := by
  unfold State.takeWithdraw
  repeat' split
  all_goals first
    | exact .same s p _
    | exact .of_frame ((setCommits_frame s _).toTrailFrame.trans (setDraft_frame _ _ _).toTrailFrame) rfl

theorem takeStreamInfo_owned (p : Port) (a : Byte) (s : State) : Owned s p (s.takeStreamInfo a) := by
  unfold State.takeStreamInfo
  split <;> exact .same s p _

theorem takeListStreams_owned (p : Port) (a : Byte) (s : State) : Owned s p (s.takeListStreams a) := by
  unfold State.takeListStreams
  split <;> exact .same s p _

theorem takePlanInfo_owned (p : Port) (a : Unit) (s : State) : Owned s p (s.takePlanInfo a) := .same s p _

theorem takeChainInfo_owned (p : Port) (a : Byte) (s : State) : Owned s p (s.takeChainInfo a) := by
  unfold State.takeChainInfo
  repeat' split
  all_goals exact .same s p _

theorem takeRemote_owned (p : Port) (r : Option RemoteRequest) (s : State) : Owned s p (s.takeRemote p r) := by
  unfold State.takeRemote
  repeat' split
  all_goals first | exact .same s p _ | exact .of_frame (setRemoteQueue_frame s _ _) rfl

theorem takeSubscribe_owned (p : Port) (a : SubscribeArgs) (s : State) : Owned s p (s.takeSubscribe p a) := by
  unfold State.takeSubscribe
  repeat' split
  all_goals first | exact .same s p _ | exact .of_frame (setRouter_frame s _ _).toTrailFrame rfl

theorem takeReadQueue_owned (p : Port) (a : Byte) (s : State) : Owned s p (s.takeReadQueue p a) := by
  unfold State.takeReadQueue
  repeat' split
  all_goals first | exact .same s p _ | exact .of_frame (setRouter_frame s _ _).toTrailFrame rfl

theorem takePortStatus_owned (p : Port) (a : Unit) (s : State) : Owned s p (s.takePortStatus p a) := .same s p _

theorem takeAttach_owned (p : Port) (a : Byte) (s : State) : Owned s p (s.takeAttach p a) := by
  unfold State.takeAttach
  split
  · exact .same s p _
  · refine ⟨fun h => by simp [Status.accepts] at h, rfl, rfl, rfl, fun q h => ?_, ?_, ?_⟩
    · simp [State.port, State.setPort, Tab.get_set, h]
    all_goals simp [State.port, State.setPort, PortContext.attach]

/-! ### Session end and restart -/

theorem endRemote_frame (p : Port) (s : State) : TrailFrame s (s.endRemote p) :=
  (setRemoteQueue_frame s p []).trans (setOutstanding_frame _ _)

theorem settleDraft_frame (p : Port) (s : State) : TrailFrame s (s.settleDraft p) := by
  unfold State.settleDraft
  split
  · exact .refl s
  · exact (discardDraft_frame s p).toTrailFrame
  · exact (setCommits_frame s _).toTrailFrame.trans (discardDraft_frame _ p).toTrailFrame
  · exact (setDraft_frame s p _).toTrailFrame

/-- A session end beyond the port's own context. -/
theorem endSession_frame (p : Port) (w : EndReason) (s : State) :
    TrailFrame (s.setPort p ((s.port p).ended w)) (s.endSession p w) := by
  unfold State.endSession
  dsimp only
  exact (((settleDraft_frame p _).trans (streams_frame _ _).toTrailFrame).trans (endRemote_frame p _)).trans
    (setRouter_frame _ _ _).toTrailFrame

theorem takeDetach_owned (p : Port) (a : Unit) (s : State) : Owned s p (s.takeDetach p a) := by
  have f := endSession_frame p .detach s
  refine ⟨fun h => by simp [State.takeDetach, reply, Status.accepts] at h, f.resetHigh, f.pending,
    by simp only [State.takeDetach]; rw [f.cycle]; rfl, fun q h => ?_, ?_, ?_⟩
  all_goals simp [State.takeDetach, State.port, f.ports, PortContext.ended]
  simp [Tab.get_set, h]

theorem restartRemote_frame (s : State) : TrailFrame s s.restartRemote := by
  unfold State.restartRemote
  refine (setRemote_frame s _).trans (.foldl (fun t p => ?_) _ _)
  exact .foldl (fun t r => (failRemote_frame p _ t r).toTrailFrame) _ _

theorem restartStream_frame (p : Port) (s : State) (h : Handle) : StreamFrame s (s.restartStream p h) := by
  unfold State.restartStream
  split
  · exact (setStream_frame s h _).trans (notifyOwner?_frame _ _ _).toStreamFrame
  · exact .refl s

/-- Enabling the chain port keeps all but the Cycle Engine. -/
theorem enablePort_frame {s t : State} (f : TrailFrame s t) : TrailFrame s.enablePort t.enablePort :=
  ⟨f.resetHigh, f.ports, by simp only [State.enablePort, State.setCycle, f.cycle], f.arbiter, f.pending⟩

/-- An accepted restart beyond the chain port's enabling. -/
theorem restartChain_frame (p : Port) (s : State) : TrailFrame s.enablePort (s.restartChain p) := by
  unfold State.restartChain
  dsimp only
  generalize hu : (allHandles.foldl (State.restartStream p) s).setDraft p Draft.empty = u
  have f1 : TrailFrame s u :=
    hu ▸ (StreamFrame.foldl (restartStream_frame p) _ _).toTrailFrame.trans (setDraft_frame _ _ _).toTrailFrame
  generalize hv : (u.setSwitch u.switch.restarted).setChain ChainManager.restarted = v
  have f2 : TrailFrame s v :=
    hv ▸ (f1.trans (setSwitch_frame u _).toTrailFrame).trans (setChain_frame _ _).toTrailFrame
  refine (enablePort_frame f2).trans ?_
  generalize v.enablePort = w
  exact ((restartRemote_frame w).trans (setFetch_frame _ _).toTrailFrame).trans (raise_frame _ _).toTrailFrame

theorem takeChainRestart_owned (p : Port) (a : Unit) (s : State) : Owned s p (s.takeChainRestart p a) := by
  unfold State.takeChainRestart
  split
  · exact .same s p _
  · split
    · exact .same s p _
    · have f := restartChain_frame p s
      refine ⟨fun h => by simp [reply, Status.accepts] at h, f.resetHigh, f.pending, by rw [f.cycle]; rfl,
        fun q _ => ?_, ?_, ?_⟩
      all_goals simp [State.port, f.ports]; rfl

/-! ### The request frame as a whole (R173) -/

theorem takeRequest_owned {α : Type} (o : Bool) (p : Port) (b : Sized α) (owner : α → State → State × Response) (s : State)
    (h : ∀ a, Owned s p (owner a s)) : Owned s p (s.takeRequest o p b owner) := by
  unfold State.takeRequest
  split
  · exact .same s p _
  · split
    · exact .same s p _
    · exact h _

/-- A full slot discards the frame (R173 step 1). -/
theorem requestThen_full {α : Type} (o : Bool) (p : Port) (b : Sized α) (owner : α → State → State × Response)
    (after : State → State) (s : State) (r : Response) (h : (s.port p).slot = some r) :
    s.requestThen o p b owner after = s.setPort p (s.port p).overran := by
  simp [State.requestThen, h]

/-- An owner that accepts: its change, the response with the lease renewed, then what the request sets off. -/
theorem requestThen_accepted {α : Type} (o : Bool) (p : Port) (a : α) (owner : α → State → State × Response)
    (after : State → State) (s t : State) (r : Response) (hs : s.serves p) (h : owner a s = (t, r))
    (hr : r.status.accepts = true) :
    s.whenReleased (State.requestThen o p (.sized a) owner after) = .next (after (t.accepted p r)) := by
  obtain ⟨h1, h2, h3⟩ := hs
  simp [State.whenReleased, h1, State.requestThen, h2, State.takeRequest, h3, h, hr, State.respond, State.accepted,
    respond_accepting]

/-- An owner that refuses: the response and nothing else. -/
theorem requestThen_refused {α : Type} (o : Bool) (p : Port) (a : α) (owner : α → State → State × Response)
    (after : State → State) (s : State) (st : Status) (hs : s.serves p) (h : owner a s = (s, reply st))
    (hr : st.accepts = false) :
    s.whenReleased (State.requestThen o p (.sized a) owner after) = .next (s.refused p st) := by
  obtain ⟨h1, h2, h3⟩ := hs
  have e := respond_refusing (s.port p) (reply st) hr
  simp only [State.whenReleased, h1, if_true, State.requestThen, h2, State.takeRequest, h3, h, State.respond, State.refused]
  simp [reply, hr] at e ⊢
  rw [e]

end Sys2Proof.Machine
end

