-- ==== Sys2Proof/Laws/Cycle.lean ====
section
/-! SUPPORT. What the acts of a cycle start can do, and the order they fall in. -/

namespace Sys2Proof.Machine

/-! ### The frame of a cycle start -/

/-- Besides what a trail can reach, an act of a cycle start reaches the ports, the Arbiter and the Cycle Engine but for the
counter and the acts made ahead. -/
structure CycleFrame (s t : State) : Prop where
  resetHigh : t.resetHigh = s.resetHigh
  pending : t.pending = s.pending
  counter : t.cycle.counter = s.cycle.counter
  begun : t.cycle.begun = s.cycle.begun

theorem CycleFrame.refl (s : State) : CycleFrame s s := ⟨rfl, rfl, rfl, rfl⟩

theorem CycleFrame.trans {s t u : State} (a : CycleFrame s t) (b : CycleFrame t u) : CycleFrame s u :=
  ⟨b.resetHigh.trans a.resetHigh, b.pending.trans a.pending, b.counter.trans a.counter, b.begun.trans a.begun⟩

theorem TrailFrame.toCycleFrame {s t : State} (f : TrailFrame s t) : CycleFrame s t :=
  ⟨f.resetHigh, f.pending, by rw [f.cycle], by rw [f.cycle]⟩

/-! ### Leases (R171, R172) -/

/-- The expiry of a lease beyond the port's own context. -/
theorem expireLease_frame (p : Port) (s : State) :
    TrailFrame (s.setPort p ((s.port p).ended .leaseExpired)) (s.expireLease p) :=
  (endSession_frame p .leaseExpired s).trans (formIfDue_frame _).toTrailFrame

/-- What a cycle start's lease act can do: end the session, take one off the count, or nothing. -/
theorem tickLease_cases (p : Port) (s : State) :
    (s.tickLease p = s.expireLease p ∧ s.attached p = true ∧ ∃ n, (s.port p).leaseCount = some n ∧ n ≤ 1)
      ∨ (∃ n, s.attached p = true ∧ (s.port p).leaseCount = some n ∧ 2 ≤ n
          ∧ s.tickLease p = s.setPort p { s.port p with leaseCount := some (n - 1) })
      ∨ (s.tickLease p = s ∧ (s.attached p = false ∨ (s.port p).leaseCount = none)) := by
  unfold State.tickLease State.attached
  split
  · next n h1 h2 =>
    split
    · next h => exact .inl ⟨rfl, by simp [h1], n, h2, h⟩
    · next h => exact .inr (.inl ⟨n, by simp [h1], h2, by omega, rfl⟩)
  · next h =>
    refine .inr (.inr ⟨rfl, ?_⟩)
    cases h1 : (s.port p).state with
    | detached => exact .inl rfl
    | attached =>
      cases h2 : (s.port p).leaseCount with
      | none => exact .inr rfl
      | some n => exact absurd h2 (h n h1)

theorem setPort_cycleFrame (s : State) (p : Port) (c : PortContext) : CycleFrame s (s.setPort p c) := ⟨rfl, rfl, rfl, rfl⟩

theorem tickLease_frame (p : Port) (s : State) : CycleFrame s (s.tickLease p) := by
  rcases tickLease_cases p s with ⟨h, -⟩ | ⟨n, -, -, -, h⟩ | ⟨h, -⟩ <;> rw [h]
  · exact (setPort_cycleFrame s p _).trans (expireLease_frame p s).toCycleFrame
  · exact setPort_cycleFrame s p _
  · exact .refl s

/-- A lease act touches its own port's context only. -/
theorem tickLease_others (p q : Port) (s : State) (hq : q ≠ p) : (s.tickLease p).port q = s.port q := by
  rcases tickLease_cases p s with ⟨h, -⟩ | ⟨n, -, -, -, h⟩ | ⟨h, -⟩ <;> rw [h]
  · simp [State.port, (expireLease_frame p s).ports, Tab.get_set, hq]
  · simp [State.port, State.setPort, Tab.get_set, hq]

/-! ### The control slot (R135 to R138) -/

theorem headCheck_frame (s : State) (p : Port) : TrailFrame s (s.headCheck p) :=
  (setRemoteQueue_frame s p _).trans (.foldl (fun t r => (failRemote_frame p _ t r).toTrailFrame) _ _)

theorem headChecks_frame (s : State) : TrailFrame s s.headChecks := .foldl headCheck_frame allPorts s

theorem sendResync_frame (r : ResyncTransfer) (s : State) : ChainFrame s (s.sendResync r).1 := by
  unfold State.sendResync
  dsimp only
  split <;> exact setChain_frame s _

theorem sendChain_frame (i : ChainItem) (s : State) : ChainFrame s (s.sendChain i).1 := by
  unfold State.sendChain
  cases i <;> dsimp only
  case bringUpExtend => split <;> exact .refl s
  case bringUpSeek => split <;> exact .refl s
  case extend => split <;> exact .refl s
  case resyncLine => split; exact sendResync_frame _ s; exact .refl s
  case resyncSeal => split; exact sendResync_frame _ s; exact .refl s
  case probe => exact setChain_frame s _

theorem sendFetch_frame (s : State) : FormFrame s s.sendFetch.1 := by
  unfold State.sendFetch; split
  · exact setFetch_frame s _
  · exact .refl s

theorem sendRemote_frame (p : Port) (s : State) : TrailFrame s (s.sendRemote p).1 := by
  unfold State.sendRemote; split
  · exact (setRemoteQueue_frame s p _).trans (setOutstanding_frame _ _)
  · exact .refl s

/-- The switch client's message leaves epoch, plan, settings, token, phase and batch. -/
theorem switch_send_keeps (x : SwitchEngine) :
    x.send.1.epoch = x.epoch ∧ x.send.1.plan = x.plan ∧ x.send.1.settings = x.settings ∧ x.send.1.token = x.token
      ∧ x.send.1.phase = x.phase ∧ x.send.1.batch = x.batch ∧ x.send.1.countdown = x.countdown := by
  unfold SwitchEngine.send SwitchEngine.setTransfer
  split
  · simp
  · split
    · simp
    · split <;> simp

theorem fill_cycleFrame (c : Option Client) (s : State) : CycleFrame s (s.fill c).1 := by
  unfold State.fill
  split
  · exact .refl s
  · exact (setSwitch_frame s _).toCycleFrame
  · exact (sendChain_frame _ s).toCycleFrame
  · exact (sendFetch_frame s).toCycleFrame
  · next p =>
    have f := (sendRemote_frame p (s.setArbiter { s.arbiter with lastGranted := p })).toCycleFrame
    exact ⟨f.resetHigh, f.pending, f.counter, f.begun⟩

theorem tickBringUp_frame (s : State) : ChainFrame s s.tickBringUp := by
  unfold State.tickBringUp
  split
  · exact setChain_frame s _
  · exact .refl s
  · exact .refl s

theorem grantTo_cycleFrame (c : Option Client) (s : State) : CycleFrame s (s.grantTo c) := by
  unfold State.grantTo
  refine CycleFrame.trans ?_ (tickBringUp_frame _).toCycleFrame
  exact (fill_cycleFrame c s).trans ⟨rfl, rfl, rfl, rfl⟩

theorem grantSlot_cycleFrame (s : State) : CycleFrame s s.grantSlot :=
  (headChecks_frame s).toCycleFrame.trans (grantTo_cycleFrame _ _)

/-! ### The acts -/

theorem tickProbe_frame (s : State) : ChainFrame s s.tickProbe := by
  unfold State.tickProbe
  split
  · exact .refl s
  · exact .refl s
  · split <;> exact setChain_frame s _

theorem firstBringUp_cycleFrame (s : State) : CycleFrame s s.firstBringUp := by
  unfold State.firstBringUp
  split
  · exact ⟨rfl, rfl, rfl, rfl⟩
  · exact .refl s
  · exact .refl s

theorem sendLead_cycleFrame (m : Tab Sample 64) (s : State) : CycleFrame s (s.sendLead m) := ⟨rfl, rfl, rfl, rfl⟩

theorem runAct_cycleFrame (m : Tab Sample 64) (s : State) (a : CycleAct) : CycleFrame s (s.runAct m a) := by
  cases a with
  | lease p => exact tickLease_frame p s
  | switch => exact (switchCycle_frame s).toCycleFrame
  | probe => exact (tickProbe_frame s).toCycleFrame
  | slot => exact grantSlot_cycleFrame s
  | lead => exact (firstBringUp_cycleFrame s).trans (sendLead_cycleFrame m _)

theorem acts_cycleFrame (m : Tab Sample 64) (l : List CycleAct) (s : State) : CycleFrame s (l.foldl (State.runAct m) s) :=
  foldl_frame .refl .trans (runAct_cycleFrame m) l s

/-! ### The trail arrival -/

theorem arrive_closed (up : Option UpPass) (o : TrailOrder) (s : State) (h : s.cycle.window = false) :
    s.arrive up o = s := by
  simp [State.arrive, h]

/-- A trail arrival within the window, beyond the Cycle Engine's own part. -/
theorem arrive_frame (up : Option UpPass) (o : TrailOrder) (s : State) (h : s.cycle.window = true) :
    TrailFrame (s.setCycle (s.cycle.arrived up)) (s.arrive up o) := by
  simp only [State.arrive, h, if_true]
  exact readers_frame _ _ _ _

theorem arrive_cycleFrame (up : Option UpPass) (o : TrailOrder) (s : State) : CycleFrame s (s.arrive up o) := by
  cases h : s.cycle.window with
  | false => rw [arrive_closed up o s h]; exact .refl s
  | true => exact CycleFrame.trans (t := s.setCycle (s.cycle.arrived up)) ⟨rfl, rfl, rfl, rfl⟩ (arrive_frame up o s h).toCycleFrame

/-! ### The start of a cycle, and the rows that make an act of it by themselves -/

/-- With the window closed and no cycle start in progress, a cycle start that begins raises the counter and nothing else. -/
theorem openCycle_closed (s : State) (hw : s.cycle.window = false) (hb : s.cycle.begun = none) :
    s.openCycle = s.setCycle { s.cycle with counter := s.cycle.counter + 1, begun := some [] } := by
  simp [State.openCycle, hb, arrive_closed none TrailOrder.default s hw]

/-- A cycle start that has begun is not begun again. -/
theorem openCycle_begun (s : State) (l : List CycleAct) (hb : s.cycle.begun = some l) : s.openCycle = s := by
  simp [State.openCycle, hb]

/-- The counter, and the acts made, when a cycle start begins or goes on. -/
theorem openCycle_cases (s : State) :
    (s.openCycle = s ∧ ∃ l, s.cycle.begun = some l)
      ∨ (s.cycle.begun = none ∧ s.openCycle.cycle.counter = s.cycle.counter + 1 ∧ s.openCycle.cycle.begun = some []
          ∧ s.openCycle.resetHigh = s.resetHigh ∧ s.openCycle.pending = s.pending) := by
  cases hb : s.cycle.begun with
  | some l => exact .inl ⟨openCycle_begun s l hb, l, rfl⟩
  | none =>
    have f := arrive_cycleFrame none TrailOrder.default s
    refine .inr ⟨rfl, ?_⟩
    simp only [State.openCycle, hb]
    exact ⟨congrArg (· + 1) f.counter, rfl, f.resetHigh, f.pending⟩

/-- The ports are the same when a cycle start begins. -/
theorem openCycle_ports (s : State) : s.openCycle.ports = s.ports := by
  unfold State.openCycle
  split
  · rfl
  · cases hw : s.cycle.window with
    | false => simp [arrive_closed none TrailOrder.default s hw]
    | true => exact (arrive_frame none TrailOrder.default s hw).ports

/-- What a row that is one act of a cycle start can do: make the act at the cycle start that begins, or nothing. -/
theorem actAlone_cases (due : State → Bool) (a : CycleAct) (act : State → State) (s : State) :
    (due s.openCycle = true ∧ s.openCycle.cycle.made a = false ∧ s.actAlone due a act = (act s.openCycle).noteAct a)
      ∨ ((due s.openCycle = false ∨ s.openCycle.cycle.made a = true) ∧ s.actAlone due a act = s) := by
  unfold State.actAlone
  split
  · next h => simp only [Bool.and_eq_true, Bool.not_eq_true'] at h; exact .inl ⟨h.1, h.2, rfl⟩
  · next h => exact .inr ⟨by cases h1 : due s.openCycle <;> cases h2 : s.openCycle.cycle.made a <;> simp_all, rfl⟩

/-- With no cycle start in progress no act of it has been made. -/
theorem made_of_none {c : CycleEngine} (h : c.begun = none) (a : CycleAct) : c.made a = false := by
  simp [CycleEngine.made, h]

/-- After it has begun a cycle start is in progress. -/
theorem openCycle_begun_isSome (s : State) : s.openCycle.cycle.begun.isSome = true := by
  rcases openCycle_cases s with ⟨e, l, h⟩ | ⟨-, -, h, -⟩
  · rw [e, h]; rfl
  · rw [h]; rfl

/-- Beginning a cycle start makes no act of it. -/
theorem openCycle_made (s : State) (a : CycleAct) : s.openCycle.cycle.made a = s.cycle.made a := by
  rcases openCycle_cases s with ⟨e, -⟩ | ⟨h0, -, h1, -⟩
  · rw [e]
  · rw [made_of_none h0]; simp [CycleEngine.made, h1]

/-- A cycle start begins once. -/
theorem openCycle_openCycle (s : State) : s.openCycle.openCycle = s.openCycle := by
  obtain ⟨l, h⟩ := Option.isSome_iff_exists.1 (openCycle_begun_isSome s)
  exact openCycle_begun _ l h

/-- An act noted as made touches the Cycle Engine's own note of it and nothing else. -/
theorem noteAct_eq (a : CycleAct) (s : State) :
    s.noteAct a = s.setCycle { s.cycle with begun := s.cycle.begun.map (a :: ·) } := rfl

/-! ### The order of the acts -/

/-- Membership in a list with later repeats dropped. -/
theorem mem_firsts {α : Type} [DecidableEq α] (l : List α) (a : α) : a ∈ firsts l ↔ a ∈ l := by
  induction l with
  | nil => simp [firsts]
  | cons b l ih =>
    simp only [firsts, List.mem_cons, List.mem_filter, ih, decide_eq_true_eq]
    by_cases h : a = b <;> simp [h]

theorem firsts_nodup {α : Type} [DecidableEq α] (l : List α) : (firsts l).Nodup := by
  induction l with
  | nil => simp [firsts]
  | cons b l ih =>
    simp only [firsts, List.nodup_cons, List.mem_filter, decide_eq_true_eq, ne_eq, not_true_eq_false, and_false,
      not_false_eq_true, true_and]
    exact ih.filter _

/-- A completed order names each of the elements once. -/
theorem complete_nodup {α : Type} [DecidableEq α] (all order : List α) (h : all.Nodup) : (complete all order).Nodup := by
  refine (firsts_nodup order).append (h.filter _) fun a h1 h2 => ?_
  rw [mem_firsts] at h1
  have := (List.mem_filter.1 h2).2
  simp only [decide_eq_true_eq] at this
  exact this h1

theorem mem_complete {α : Type} [DecidableEq α] (all order : List α) (a : α) (h : a ∈ all) : a ∈ complete all order := by
  by_cases h1 : a ∈ order
  · exact List.mem_append_left _ ((mem_firsts order a).2 h1)
  · exact List.mem_append_right _ (List.mem_filter.2 ⟨h, by simpa using h1⟩)

/-- The lead block is moved, nothing is added or lost. -/
theorem leadAfter_perm (l : List CycleAct) (h : .lead ∈ l) : (leadAfter l).Perm l := by
  have key : ∀ l : List CycleAct, .lead ∈ l →
      l = l.takeWhile (· != .lead) ++ .lead :: (l.dropWhile (· != .lead)).drop 1 := by
    intro l h
    induction l with
    | nil => cases h
    | cons a l ih =>
      by_cases ha : a = .lead
      · subst ha; simp
      · have h' : .lead ∈ l := (List.mem_cons.1 h).resolve_left fun e => ha e.symm
        have e : (a != CycleAct.lead) = true := by simpa using ha
        simp only [List.takeWhile_cons, e, if_true, List.dropWhile_cons, List.cons_append]
        exact congrArg _ (ih h')
  conv_rhs => rw [key l h]
  unfold leadAfter
  simp only [List.append_assoc]
  refine List.Perm.append_left _ ?_
  refine List.perm_middle.trans (List.Perm.cons _ ?_)
  exact List.filter_append_perm feedsLead _

theorem allActs_nodup : allActs.Nodup := by decide

theorem actsOf_perm (order : List CycleAct) : (actsOf order).Perm (complete allActs order) :=
  leadAfter_perm _ (mem_complete _ _ _ (by decide))

/-- Every act falls at every cycle start. -/
theorem mem_actsOf (order : List CycleAct) (a : CycleAct) : a ∈ actsOf order := by
  rw [(actsOf_perm order).mem_iff]
  refine mem_complete _ _ _ ?_
  cases a with
  | lease p => fin_cases p <;> decide
  | switch => decide
  | probe => decide
  | slot => decide
  | lead => decide

/-- No act falls twice at a cycle start. -/
theorem actsOf_nodup (order : List CycleAct) : (actsOf order).Nodup :=
  (actsOf_perm order).nodup_iff.2 (complete_nodup _ _ allActs_nodup)

end Sys2Proof.Machine
end

