-- ==== Sys2Proof/Laws/Chain.lean ====
section
/-! SUPPORT. The chain table: the end of the chain, what each change of the table makes of every entry, and that the
changes keep the law of the table. -/

namespace Sys2Proof.Machine

/-! ### The end of the chain (R104) -/

namespace ChainManager

variable (c : ChainManager)

theorem mem_positions (p : Nat) : p ∈ positions ↔ 1 ≤ p ∧ p ≤ 15 := by
  simp only [positions, List.mem_range'_1]; omega

theorem entry_out (p : Nat) (h : ¬(1 ≤ p ∧ p ≤ 15)) : c.entry p = ChainEntry.reset := by
  simp [entry, h]

theorem enrolled_range {p : Nat} (h : (c.entry p).enrolled = true) : 1 ≤ p ∧ p ≤ 15 := by
  by_contra hc
  rw [entry_out c p hc] at h
  simp [ChainEntry.reset, ChainEntry.enrolled] at h

theorem endBelow_le (n : Nat) : c.endBelow n ≤ n := by
  induction n with
  | zero => simp [endBelow]
  | succ n ih => unfold endBelow; split <;> omega

theorem endBelow_enrolled (n : Nat) : c.endBelow n = 0 ∨ (c.entry (c.endBelow n)).enrolled = true := by
  induction n with
  | zero => simp [endBelow]
  | succ n ih =>
    unfold endBelow
    split
    · next h => exact .inr h
    · exact ih

theorem le_endBelow (n p : Nat) (h : (c.entry p).enrolled = true) (hp : p ≤ n) : p ≤ c.endBelow n := by
  induction n with
  | zero => omega
  | succ n ih =>
    unfold endBelow
    split
    · exact hp
    · next hn =>
      have : p ≠ n + 1 := fun e => hn (e ▸ h)
      exact ih (by omega)

theorem endM_le : c.endM ≤ 15 := endBelow_le c 15

/-- The end of the chain is enrolled, when there is one. -/
theorem endM_enrolled (h : c.endM ≠ 0) : (c.entry c.endM).enrolled = true :=
  (endBelow_enrolled c 15).resolve_left h

/-- No enrolled position lies beyond the end of the chain. -/
theorem le_endM {p : Nat} (h : (c.entry p).enrolled = true) : p ≤ c.endM :=
  le_endBelow c 15 p h (enrolled_range c h).2

theorem endM_eq_of {c d : ChainManager} (h : ∀ p, (d.entry p).enrolled = (c.entry p).enrolled) : d.endM = c.endM := by
  have key : ∀ n, d.endBelow n = c.endBelow n := by
    intro n
    induction n with
    | zero => rfl
    | succ n ih => simp only [endBelow, h, ih]
  exact key 15

/-- The end of the chain, when the enrolled positions are exactly 1 to m. -/
theorem endM_eq_iff {m : Nat} (h : ∀ p, (c.entry p).enrolled = true ↔ 1 ≤ p ∧ p ≤ m) : c.endM = m := by
  apply Nat.le_antisymm
  · by_cases h0 : c.endM = 0
    · omega
    · exact ((h _).1 (endM_enrolled c h0)).2
  · by_cases h0 : m = 0
    · omega
    · exact le_endM c ((h m).2 ⟨by omega, Nat.le_refl m⟩)

/-- Under the law the enrolled positions are exactly 1 to m. -/
theorem enrolled_iff {c : ChainManager} (h : c.law) (p : Nat) : (c.entry p).enrolled = true ↔ 1 ≤ p ∧ p ≤ c.endM :=
  ⟨fun hp => ⟨(enrolled_range c hp).1, le_endM c hp⟩, fun hp => h.1 p hp.1 hp.2⟩

/-! ### What a change makes of every entry -/

theorem entry_mapEntries (f : Nat → ChainEntry) (q : Nat) :
    (c.mapEntries f).entry q = if 1 ≤ q ∧ q ≤ 15 then f q else ChainEntry.reset := by
  have key : ∀ (l : List Nat) (d : ChainManager),
      (l.foldl (fun c p => c.setEntry p (f p)) d).entry q = if q ∈ l ∧ 1 ≤ q ∧ q ≤ 15 then f q else d.entry q := by
    intro l
    induction l with
    | nil => intro d; simp
    | cons a l ih =>
      intro d
      simp only [List.foldl_cons, ih, entry_setEntry, List.mem_cons]
      by_cases h1 : q ∈ l <;> by_cases h2 : 1 ≤ q ∧ q ≤ 15 <;> by_cases h3 : q = a <;> simp_all
  rw [mapEntries, key]
  by_cases h : 1 ≤ q ∧ q ≤ 15
  · rw [if_pos ⟨(mem_positions q).2 h, h⟩, if_pos h]
  · rw [if_neg fun h' => h h'.2, if_neg h, entry_out c q h]

/-- Everything but the table stays when entries are replaced. -/
theorem mapEntries_keeps (f : Nat → ChainEntry) :
    (c.mapEntries f).state = c.state ∧ (c.mapEntries f).bringUp = c.bringUp ∧ (c.mapEntries f).resync = c.resync
      ∧ (c.mapEntries f).breakCount = c.breakCount ∧ (c.mapEntries f).largestShort = c.largestShort
      ∧ (c.mapEntries f).lastReach = c.lastReach ∧ (c.mapEntries f).lastMissing = c.lastMissing := by
  have key : ∀ (l : List Nat) (d : ChainManager), let e := l.foldl (fun c p => c.setEntry p (f p)) d
      e.state = d.state ∧ e.bringUp = d.bringUp ∧ e.resync = d.resync ∧ e.breakCount = d.breakCount
        ∧ e.largestShort = d.largestShort ∧ e.lastReach = d.lastReach ∧ e.lastMissing = d.lastMissing := by
    intro l
    induction l with
    | nil => intro d; simp
    | cons a l ih => intro d; have := ih (d.setEntry a (f a)); simpa using this
  exact key positions c

theorem lose_lose (e : ChainEntry) : e.lose.lose = e.lose := rfl

/-- R111: the entries after positions become LOST. -/
theorem entry_loseEntries (ps : List Nat) (q : Nat) :
    (ps.foldl loseEntry c).entry q = if q ∈ ps ∧ 1 ≤ q ∧ q ≤ 15 then (c.entry q).lose else c.entry q := by
  induction ps generalizing c with
  | nil => simp
  | cons a l ih =>
    simp only [List.foldl_cons, ih, loseEntry, entry_setEntry, List.mem_cons]
    by_cases h1 : q ∈ l <;> by_cases h2 : 1 ≤ q ∧ q ≤ 15 <;> by_cases h3 : q = a <;> simp_all [lose_lose]

theorem loseEntries_keeps (ps : List Nat) :
    (ps.foldl loseEntry c).state = c.state ∧ (ps.foldl loseEntry c).bringUp = c.bringUp
      ∧ (ps.foldl loseEntry c).resync = c.resync := by
  induction ps generalizing c with
  | nil => simp
  | cons a l ih => simpa [loseEntry] using ih (c.loseEntry a)

/-- R108, R116: leaving JOINING or entering RESYNCING leaves an entry enrolled or not as it was, and a RESYNCING entry as
it is. -/
theorem movedEntry_enrolled (idle : Bool) (p : Nat) : (c.movedEntry idle p).enrolled = (c.entry p).enrolled := by
  unfold movedEntry
  split
  · next h => simp only [ChainEntry.readies, ChainEntry.proven, Bool.and_eq_true, beq_iff_eq] at h
              simp [ChainEntry.enrolled, h.1.1.1]
  · split
    · next h =>
      simp only [resyncs, ChainEntry.proven, Bool.and_eq_true, Bool.or_eq_true, beq_iff_eq] at h
      rcases h.2 with h | h
      · simp [ChainEntry.enrolled, h.1.1]
      · simp [ChainEntry.enrolled, h.1.1]
    · rfl

theorem movedEntry_resyncing (idle : Bool) (p : Nat) (h : (c.entry p).state = .resyncing) :
    c.movedEntry idle p = c.entry p := by
  simp [movedEntry, ChainEntry.readies, ChainEntry.proven, resyncs, h]

theorem entry_dropResync (ps : List Nat) (q : Nat) : (c.dropResync ps).entry q = c.entry q := by
  unfold dropResync; split
  · split <;> rfl
  · rfl

theorem enrolledAbove_mem (r p : Nat) : p ∈ c.enrolledAbove r ↔ r < p ∧ (c.entry p).enrolled = true := by
  unfold enrolledAbove
  rw [List.mem_filter, mem_positions]
  constructor
  · intro h; simpa using h.2
  · intro h; exact ⟨enrolled_range c h.2, by simpa using h⟩

/-! ### The law (R104) -/

/-- A change that leaves the chain state, the bring-up record and the resync transfer, and every entry enrolled or not as
it was, keeps the law when no RESYNCING entry leaves that state. -/
theorem law_of_same {c d : ChainManager} (h : c.law) (h1 : ∀ p, (d.entry p).enrolled = (c.entry p).enrolled)
    (h2 : d.state = c.state) (h3 : d.bringUp = c.bringUp) (h4 : d.resync = c.resync)
    (h5 : ∀ p, (c.entry p).state = .resyncing → (d.entry p).state = .resyncing) : d.law := by
  have e := endM_eq_of h1
  refine ⟨fun p a b => ?_, fun hb => ?_, fun ho => ?_, fun r hr => ?_⟩
  · rw [h1]; exact h.1 p a (e ▸ b)
  · rw [h3, e]; exact h.2.1 (h2 ▸ hb)
  · rw [e]; exact h.2.2.1 (h2 ▸ ho)
  · exact h5 _ (h.2.2.2 r (h4 ▸ hr))

theorem enterRunning_entry (p : Nat) : c.enterRunning.entry p = c.entry p := rfl
theorem restBreak_entry (p : Nat) : c.restBreak.entry p = c.entry p := by unfold restBreak; split <;> rfl
theorem restBreak_keeps : c.restBreak.state = c.state ∧ c.restBreak.bringUp = c.bringUp ∧ c.restBreak.resync = c.resync := by
  unfold restBreak; split <;> exact ⟨rfl, rfl, rfl⟩
theorem endChanged_entry (p : Nat) : c.endChanged.entry p = c.entry p := by unfold endChanged; split <;> rfl
theorem endChanged_keeps : c.endChanged.state = c.state ∧ c.endChanged.bringUp = c.bringUp ∧ c.endChanged.resync = c.resync := by
  unfold endChanged; split <;> exact ⟨rfl, rfl, rfl⟩

theorem law_endChanged {c : ChainManager} (h : c.law) : c.endChanged.law :=
  law_of_same h (fun p => by rw [endChanged_entry]) (endChanged_keeps c).1 (endChanged_keeps c).2.1 (endChanged_keeps c).2.2
    fun p hp => by rw [endChanged_entry]; exact hp

/-- R111, R106: a loss of every enrolled position above r. -/
theorem law_lose {c : ChainManager} (h : c.law) (r : Nat) : (c.lose (c.enrolledAbove r)).law := by
  have key : ∀ d : ChainManager, (∀ p, d.entry p = (((c.enrolledAbove r).foldl loseEntry c).dropResync (c.enrolledAbove r)).entry p) →
      (d.state = .bringUp → False) → (d.state = .off → c.state = .off) →
      d.resync = (((c.enrolledAbove r).foldl loseEntry c).dropResync (c.enrolledAbove r)).resync → d.law := by
    intro d h1 h2 h3 h4
    have hen : ∀ p, (d.entry p).enrolled = true ↔ 1 ≤ p ∧ p ≤ min r c.endM := by
      intro p
      rw [h1, entry_dropResync, entry_loseEntries]
      split
      · next hp =>
        have := (enrolledAbove_mem c r p).1 hp.1
        simp only [ChainEntry.lose, ChainEntry.enrolled, Bool.or_eq_true]
        simp
        omega
      · next hp =>
        rw [enrolled_iff h]
        rw [enrolledAbove_mem] at hp
        constructor
        · intro a
          have := (enrolled_iff h p).2 a
          have b := enrolled_range c this
          by_contra hc
          exact hp ⟨⟨by omega, this⟩, b⟩
        · omega
    have em : d.endM = min r c.endM := endM_eq_iff d hen
    refine ⟨fun p a b => (hen p).2 ⟨a, em ▸ b⟩, fun hb => (h2 hb).elim, fun ho => ?_, fun x hx => ?_⟩
    · have := h.2.2.1 (h3 ho); omega
    · rw [h4] at hx
      have hx' : c.resync = some x ∧ x.position ∉ c.enrolledAbove r := by
        unfold dropResync at hx
        rw [(loseEntries_keeps c _).2.2] at hx
        split at hx
        · next y hy =>
          split at hx
          · cases hx
          · next hn => rw [(loseEntries_keeps c _).2.2, hy] at hx; cases hx; exact ⟨hy, by simpa using hn⟩
        · next hn => rw [(loseEntries_keeps c _).2.2, hn] at hx; cases hx
      rw [h1, entry_dropResync, entry_loseEntries, if_neg fun a => hx'.2 a.1]
      exact h.2.2.2 x hx'.1
  have es : ((((c.enrolledAbove r).foldl loseEntry c).dropResync (c.enrolledAbove r)).restBreak).state = c.state := by
    rw [(restBreak_keeps _).1]
    unfold dropResync
    split
    · split <;> exact (loseEntries_keeps c _).1
    · exact (loseEntries_keeps c _).1
  unfold lose
  dsimp only
  split
  · next hs =>
    exact key _ (fun p => (enterRunning_entry _ p).trans (restBreak_entry _ p)) (fun hb => by cases hb)
      (fun ho => by cases ho) (restBreak_keeps _).2.2
  · next hs =>
    refine key _ (fun p => (endChanged_entry _ p).trans (restBreak_entry _ p)) (fun hb => ?_) (fun ho => ?_)
      ((endChanged_keeps _).2.2.trans (restBreak_keeps _).2.2)
    · rw [(endChanged_keeps _).1, hs] at hb; cases hb
    · rw [(endChanged_keeps _).1, hs] at ho; cases ho
  · next hs =>
    exact key _ (restBreak_entry _) (fun hb => by rw [hs] at hb; cases hb) (fun _ => es ▸ hs) (restBreak_keeps _).2.2

/-- R108, R116: an entry that qualifies moves. -/
theorem law_moved {c : ChainManager} (h : c.law) (idle : Bool) (q : Nat) : (c.setEntry q (c.movedEntry idle q)).law := by
  refine law_of_same h (fun p => ?_) (by simp) (by simp) (by simp) fun p hp => ?_
  · rw [entry_setEntry]; split
    · next e => rw [← e.1]; exact movedEntry_enrolled c idle p
    · rfl
  · rw [entry_setEntry]; split
    · next e => rw [← e.1, movedEntry_resyncing c idle p hp]; exact hp
    · exact hp

/-- R117: a transfer for the lowest RESYNCING position. -/
theorem law_ensureResync {c : ChainManager} (h : c.law) : c.ensureResync.law := by
  unfold ensureResync
  split
  · exact h
  · split
    · next p hp =>
      refine ⟨h.1, h.2.1, h.2.2.1, fun r hr => ?_⟩
      cases hr
      have hs := List.find?_some hp
      exact of_decide_eq_true hs
    · exact h

/-- R106, R114: the entry just beyond the end of the chain is enrolled, the bring-up record as it then stands. -/
theorem law_enroll {c d : ChainManager} (h : c.law) (e : ChainEntry) (he : e.enrolled = true)
    (h1 : ∀ p, d.entry p = (c.setEntry (c.endM + 1) e).entry p) (h2 : d.state ≠ .off) (h3 : d.resync = c.resync)
    (h4 : d.state = .bringUp → ∃ b, d.bringUp = some b ∧ b.position = c.endM + 2 ∧ c.endM < 15) : d.law := by
  have hen : ∀ p, (d.entry p).enrolled = true ↔ 1 ≤ p ∧ p ≤ min 15 (c.endM + 1) := by
    intro p
    rw [h1, entry_setEntry]
    split
    · next hp => simp only [he, true_iff]; omega
    · next hp =>
      rw [enrolled_iff h]
      have := endM_le c
      omega
  have em : d.endM = min 15 (c.endM + 1) := endM_eq_iff d hen
  refine ⟨fun p a b => (hen p).2 ⟨a, em ▸ b⟩, fun hb => ?_, fun ho => absurd ho h2, fun r hr => ?_⟩
  · obtain ⟨b, hb1, hb2, hb3⟩ := h4 hb
    exact ⟨b, hb1, by omega⟩
  · have hs := h.2.2.2 r (h3 ▸ hr)
    have hle := le_endM c (p := r.position) (by simp [ChainEntry.enrolled, hs])
    rw [h1, entry_setEntry, if_neg (by omega)]
    exact hs

end ChainManager

end Sys2Proof.Machine
end

