-- ==== Sys2Proof/Machine/Endpoint.lean ====
section
/-! DEFINITION. The endpoint's side of the chain (sections 4.7, 5.2 to 5.4): what a Wezuta endpoint does with one cycle. The
endpoints are outside the head, so this is no part of State (assumption 25): it says which up passes they can answer a
lead block with. -/

namespace Sys2Proof.Machine

/-- A shadow map: lines by index, the token they were sent under, and while it is sealed the epoch of its seal (4.7). -/
structure Shadow where
  lines : List (Nat × MapLine)
  token : Token
  sealed : Option Epoch
  deriving DecidableEq, Repr

/-- An endpoint. `next` is a map an IMMEDIATE seal puts in force at the next cycle start (R83); `events` are its events
not yet taken, oldest first. -/
structure Endpoint where
  position : Option Nat
  drives : Bool
  active : List MapLine
  epoch : Epoch
  shadow : Shadow
  next : Option (List MapLine × Epoch)
  identity : Identity
  registers : List Byte
  events : List (Nat × BitVec 16)
  deriving DecidableEq, Repr

/-- R82: an emptied shadow: no lines, unsealed, under the token of the lead block being acted on. -/
def Shadow.emptied (token : Token) : Shadow := { lines := [], token := token, sealed := none }

/-- The map a shadow holds, its lines by ascending index. -/
def Shadow.map (x : Shadow) : List MapLine :=
  (List.range Config.mapSize).filterMap fun i => (x.lines.find? fun l => l.1 == i).map Prod.snd

/-- R82: a MAP_LINE stored at its index. -/
def Shadow.store (i : Nat) (l : MapLine) (token : Token) (x : Shadow) : Shadow :=
  let x' := if token ≠ x.token ∨ x.sealed.isSome = true then Shadow.emptied token else x
  { x' with lines := (x'.lines.filter fun y => y.1 != i) ++ [(i, l)] }

/-- R83: whether a shadow matches a seal. -/
def Shadow.complete (n : Nat) (token : Token) (x : Shadow) : Bool :=
  x.token == token && ((List.range n).all fun i => x.lines.any fun l => l.1 == i) && x.lines.all fun l => decide (l.1 < n)

/-- R83: the count held that a mismatch answers. -/
def Shadow.countHeld (token : Token) (x : Shadow) : Nat := if x.token = token then x.lines.length else 0

/-- R83: the map and epoch of an IMMEDIATE seal come into force at the next cycle start. -/
def Endpoint.begin (e : Endpoint) : Endpoint :=
  match e.next with
  | some (m, ep) => { e with active := m, epoch := ep, next := none }
  | none => e

/-- R84: the token and epoch of a lead block, acted on before its message. -/
def Endpoint.follow (token : Token) (epoch : Epoch) (e : Endpoint) : Endpoint :=
  let e1 := if token ≠ e.shadow.token then { e with shadow := Shadow.emptied token } else e
  if epoch = e1.epoch then e1
  else if e1.shadow.sealed = some epoch then
    { e1 with active := e1.shadow.map, epoch := epoch, shadow := Shadow.emptied token }
  else { e1 with epoch := epoch, shadow := Shadow.emptied token }

/-- An answer: result code and payload. -/
structure Answered where
  result : Byte
  payload : List Byte
  deriving DecidableEq, Repr

/-- An OK answer. -/
def answerOk (payload : List Byte) : Answered := { result := 0x01#8, payload := padTo 8 payload }

/-- Table 11-10: the identity record of an endpoint. -/
def Identity.payload (i : Identity) : List Byte :=
  i.kind :: i.revision :: bytes32 i.serial ++ [byteOf i.sourceLimit, byteOf i.sinkLimit]

/-- Bytes written into registers from an address. -/
def writeRegisters (address : Nat) (data regs : List Byte) : List Byte :=
  regs.take address ++ data ++ regs.drop (address + data.length)

/-- The map line a MAP_LINE payload carries (Table 11-10). -/
def lineOf (payload : List Byte) : Option (Nat × MapLine) :=
  match payload with
  | i :: h :: pass :: f :: n :: role :: _ =>
    if hh : h.toNat < 32 then
      some (i.toNat, { handle := ⟨h.toNat, hh⟩, pass := if pass = 0#8 then .down else .up, first := f.toNat, lanes := n.toNat,
                       role := if role = 0#8 then .source else .sink })
    else none
  | _ => none

/-- R82, R89: an endpoint that takes a position empties its map and shadow and takes the lead block's epoch. -/
def Endpoint.settle (p : Nat) (b : LeadBlock) (e : Endpoint) : Endpoint :=
  { e with position := some p, active := [], epoch := b.epoch, shadow := Shadow.emptied b.token, next := none }

/-- R83: a MAP_SEAL. -/
def Endpoint.takeSeal (payload : List Byte) (e : Endpoint) : Endpoint × Option Answered :=
  match payload with
  | n :: token :: mode :: e1 :: e0 :: _ =>
    if e.shadow.complete n.toNat token then
      if mode = 0#8 then
        ({ e with shadow := { e.shadow with sealed := some (word16 e1 e0) } }, some (answerOk [token]))
      else
        ({ e with next := some (e.shadow.map, word16 e1 e0), shadow := Shadow.emptied token }, some (answerOk [token]))
    else
      ({ e with shadow := { e.shadow with sealed := none } },
       some { result := 0x02#8, payload := padTo 8 [byteOf (e.shadow.countHeld token)] })
  | _ => (e, none)

/-- Table 5-2: an endpoint that takes a control message: what it becomes and the answer it writes, if any. -/
def Endpoint.take (b : LeadBlock) (e : Endpoint) : Endpoint × Option Answered :=
  match b.msg.kind, b.msg.payload with
  | .none, _ => (e, none)
  | .extend, _ => ({ e with drives := true }, some (answerOk []))
  | .seek, _ => (e.settle b.msg.target b, some (answerOk e.identity.payload))
  | .mapLine, pl =>
    match lineOf pl with
    | some (i, l) => ({ e with shadow := e.shadow.store i l (pl.getD 6 0#8) }, some (answerOk []))
    | none => (e, some (answerOk []))
  | .mapSeal, pl => e.takeSeal pl
  | .eventTake, _ =>
    match e.events with
    | ev :: rest => ({ e with events := rest }, some (answerOk (byteOf ev.1 :: bytes16 ev.2)))
    | [] => (e, some { result := 0x03#8, payload := padTo 8 [] })
  | .remoteRead, a :: n :: _ => (e, some (answerOk ((e.registers.drop a.toNat).take n.toNat)))
  | .remoteWrite, a :: n :: data =>
    ({ e with registers := writeRegisters a.toNat (data.take n.toNat) e.registers }, some (answerOk []))
  | .remoteWriteAll, a :: n :: data =>
    ({ e with registers := writeRegisters a.toNat (data.take n.toNat) e.registers }, none)
  | _, _ => (e, none)

/-- R82, R89: whether an endpoint takes the control message of a good lead block; `held` is whether a nearer endpoint the
lead block reached holds the target position. -/
def Endpoint.takes (held : Bool) (b : LeadBlock) (e : Endpoint) : Bool :=
  match e.position with
  | some p => b.msg.kind == .remoteWriteAll || (b.msg.kind != .none && b.msg.target == p)
  | none => b.msg.kind == .seek && !held

/-- What a cycle's lead block makes of an endpoint: R82, R84, then its message. A bad lead block is none. -/
def Endpoint.act (held : Bool) (lead : Option LeadBlock) (e : Endpoint) : Endpoint × Bool × Option Answered :=
  match lead with
  | none => (e, false, none)
  | some b =>
    let e1 := if e.position.isSome then e.follow b.token b.epoch else e
    if e1.takes held b then ((e1.take b).1, true, (e1.take b).2) else (e1, false, none)

/-- R93: the answer block of an endpoint at a position to a kind. -/
def answerBlock (p : Nat) (k : ControlKind) (a : Answered) : Tab Byte 13 :=
  let l := byteOf p :: k.code :: a.result :: padTo 8 a.payload
  Tab.ofList 0#8 13 (l ++ bytes16 (blockCheck l))

/-- A flag bit of a trail entry. -/
def flagBit (b : Bool) (n : Nat) : Nat := if b then n else 0

/-- R94: the trail entry of an endpoint; `before` is the endpoint before the cycle's message, as ready-valid counts from
the cycle after the seal (R83). -/
def trailEntry (p : Nat) (leadOk seen : Bool) (before after : Endpoint) : Tab Byte 6 :=
  let ready := before.shadow.sealed.isSome && after.shadow.sealed.isSome
  let l := byteOf p :: byteOf (flagBit leadOk 1 + flagBit seen 2 + flagBit (!after.events.isEmpty) 4 + flagBit ready 8)
    :: (if ready then after.shadow.token else 0#8) :: bytes16 after.epoch
  Tab.ofList 0#8 6 (l ++ [trailCheck l])

/-- R91, R92: the lanes of the lines of one role in a pass. -/
def linesCover (m : List MapLine) (pass : Pass) (role : Role) (i : Nat) : Bool :=
  m.any fun l => l.pass == pass && l.role == role && decide (l.first ≤ i) && decide (i < l.first + l.lanes)

/-- The samples an endpoint has for a cycle: those for the lanes it sources in the down pass, and in the up pass, by lane. -/
structure Samples where
  down : Tab Sample 64
  up : Tab Sample 64
  deriving DecidableEq, Repr

/-- The samples of a pass. -/
def Samples.of (x : Samples) : Pass → Tab Sample 64
  | .down => x.down
  | .up => x.up

/-- R91, R92: a pass after an endpoint has written its samples into its SOURCE lanes. -/
def Endpoint.write (e : Endpoint) (pass : Pass) (own : Samples) (lanes : Tab Sample 64) : Tab Sample 64 :=
  Tab.ofFn fun i => if linesCover e.active pass .source i.val then (own.of pass).get i else lanes.get i

/-- R91, R92: the lanes an endpoint takes from a pass, 0 elsewhere. -/
def Endpoint.read (e : Endpoint) (pass : Pass) (lanes : Tab Sample 64) : Tab Sample 64 :=
  Tab.ofFn fun i => if linesCover e.active pass .sink i.val then lanes.get i else 0#16

/-- The wire of a hop in a cycle (R90, R92 to R94, section 7.2): cut, so that nothing crosses it either way; losing the up pass
on its way back, what crossed outward having arrived; damaging the lead block, the answer block or the trail entries that cross
it; and the bits it turns over in the lanes of each pass, which have no check. A unit that acts and does not forward the up pass
is one whose own hop loses it. -/
structure Wire where
  cut : Bool
  loseUp : Bool
  garbleLead : Bool
  garbleAnswer : Bool
  garbleTrail : Bool
  noise : Samples
  deriving DecidableEq, Repr

/-- A wire on which nothing goes wrong. -/
def Wire.whole : Wire :=
  { cut := false, loseUp := false, garbleLead := false, garbleAnswer := false, garbleTrail := false
    noise := { down := silence, up := silence } }

/-- The lanes of a pass after a hop. -/
def Wire.carry (w : Wire) (pass : Pass) (lanes : Tab Sample 64) : Tab Sample 64 :=
  Tab.ofFn fun i => lanes.get i ^^^ (w.noise.of pass).get i

/-- R94: a trail entry damaged on a hop: its check is wrong, and stays wrong however many hops damage it. -/
def damagedEntry (b : Tab Byte 6) : Tab Byte 6 :=
  Tab.ofList 0#8 6 (b.toList.take 5 ++ [~~~trailCheck (b.toList.take 5)])

/-- R93: an answer block field damaged on a hop, likewise; an empty field stays one. -/
def damagedAnswer (b : Tab Byte 13) : Tab Byte 13 :=
  Tab.ofList 0#8 13 (b.toList.take 11 ++ bytes16 (~~~blockCheck (b.toList.take 11)))

/-- R92 to R94: what of an up pass crosses a hop: nothing when the hop loses it, else the pass with what the hop damages. -/
def crossWire (w : Wire) (u : UpPass) : Option UpPass :=
  if w.loseUp then none
  else some
    { lanes := w.carry .up u.lanes
      answer := if w.garbleAnswer then damagedAnswer u.answer else u.answer
      trail := if w.garbleTrail then u.trail.map damagedEntry else u.trail }

/-- R92: the up pass the far end starts. -/
def freshUp : UpPass := { lanes := silence, answer := Tab.fill 13 0#8, trail := [] }

/-- R92 steps 1, 3 and 4: what an endpoint does to the up pass that goes by it; one that held no position before the cycle turns
the pass around, writing only the answer of a SEEK it took. -/
def Endpoint.return (before after : Endpoint) (own : Samples) (lead : Option LeadBlock) (took : Bool)
    (ans : Option Answered) (u : UpPass) : UpPass :=
  let k := match lead with
    | some b => b.msg.kind
    | none => .none
  let u1 := match ans, after.position with
    | some a, some p => { u with answer := answerBlock p k a }
    | _, _ => u
  match before.position with
  | some p =>
    { u1 with lanes := after.write .up own u1.lanes, trail := u1.trail ++ [trailEntry p lead.isSome took before after] }
  | none => u1

/-- Whether an endpoint holds the target position of a good lead block. -/
def holdsTarget (lead : Option LeadBlock) (e : Endpoint) : Bool :=
  match lead with
  | some b => e.position == some b.msg.target
  | none => false

/-- One place of a chain in a cycle: an endpoint, the wire of the hop before it, and its samples. -/
structure Link where
  wire : Wire
  own : Samples
  endpoint : Endpoint
  deriving DecidableEq, Repr

/-- An endpoint after a cycle, and the lanes it took from each pass; none from a pass that did not go by it, or while it held
no position. -/
structure Passed where
  endpoint : Endpoint
  down : Option (Tab Sample 64)
  up : Option (Tab Sample 64)
  deriving DecidableEq, Repr

/-- An endpoint that a cycle does not reach. -/
def Link.unreached (x : Link) : Passed := { endpoint := x.endpoint, down := none, up := none }

/-- R91, R92 step 2: the lanes an endpoint takes from a pass as it forwards it; none while it holds no position. -/
def Endpoint.taken (before after : Endpoint) (pass : Pass) (lanes : Tab Sample 64) : Option (Tab Sample 64) :=
  before.position.map fun _ => after.read pass lanes

/-- R90 to R92, Table 5-1: one cycle of a chain, nearest first. An endpoint that holds a position and drives its far side
forwards the lead block as it received it and the down pass with its own lanes. It turns the pass around itself, from `freshUp`,
when it drives no far side or no up pass comes back from beyond: beyond a cut nothing happened, beyond a lost up pass the
endpoints have acted. The up pass is none when none comes back to the head. An EXTEND drives the far side from the next cycle
(assumption 25). -/
def runChain (held : Bool) : List Link → Option LeadBlock → Tab Sample 64 → List Passed × Option UpPass
  | [], _, _ => ([], none)
  | x :: rest, lead, down =>
    if x.wire.cut then ((x :: rest).map Link.unreached, none)
    else
      let seen := if x.wire.garbleLead then none else lead
      let e0 := x.endpoint.begin
      let acted := e0.act held seen
      let before := match seen with
        | some b => if e0.position.isSome then e0.follow b.token b.epoch else e0
        | none => e0
      let outward := acted.1.write .down x.own (x.wire.carry .down down)
      let beyond :=
        if e0.position.isSome ∧ e0.drives = true then runChain (held || holdsTarget seen e0) rest seen outward
        else (rest.map Link.unreached, none)
      let back := Endpoint.return before acted.1 x.own seen acted.2.1 acted.2.2 (beyond.2.getD freshUp)
      ({ endpoint := acted.1, down := e0.taken acted.1 .down outward, up := e0.taken acted.1 .up back.lanes } :: beyond.1,
        crossWire x.wire back)

end Sys2Proof.Machine
end

