-- ==== Sys2Proof/Laws/Endpoint.lean ====
section
/-! SUPPORT. What one cycle does along the chain: every endpoint has its outcome, a hop that loses the up pass gives the nearer
side none, and beyond a cut nothing happens. -/

namespace Sys2Proof.Machine

/-- A cycle gives one outcome for each endpoint of the chain, reached or not. -/
theorem runChain_length (held : Bool) (l : List Link) (lead : Option LeadBlock) (down : Tab Sample 64) :
    (runChain held l lead down).1.length = l.length := by
  induction l generalizing held lead down with
  | nil => rfl
  | cons x rest ih =>
    unfold runChain
    split
    · simp
    · dsimp only
      rw [List.length_cons, List.length_cons, Nat.add_right_cancel_iff]
      split
      · exact ih ..
      · simp

/-- R92: nothing crosses a cut hop, and nothing beyond it changes. -/
theorem runChain_cut (held : Bool) (x : Link) (rest : List Link) (lead : Option LeadBlock) (down : Tab Sample 64)
    (h : x.wire.cut = true) : runChain held (x :: rest) lead down = ((x :: rest).map Link.unreached, none) := by
  simp [runChain, h]

/-- R92: no up pass comes back over a hop that loses it, whatever the endpoints beyond did. -/
theorem runChain_loseUp (held : Bool) (x : Link) (rest : List Link) (lead : Option LeadBlock) (down : Tab Sample 64)
    (h : x.wire.loseUp = true) : (runChain held (x :: rest) lead down).2 = none := by
  unfold runChain
  split
  · rfl
  · simp [crossWire, h]

end Sys2Proof.Machine
end

