-- ==== Sys2Proof/Laws/PerInstr.lean ====
section
/-! SUPPORT. The family of statements proved for each command: which commands are transactions of a host port, and how long
a request frame is. -/

namespace Sys2Proof.Laws

open Sys2Proof.Machine

/-! ### Lengths of frames (Table 11-3, R173) -/

theorem frameBytes_length (code : Byte) (body : List Byte) : (frameBytes code body).length = body.length + 4 := by
  simp [frameBytes]

theorem frame_length {code : Byte} {body : List Byte} (h : body.length ≤ 28) :
    4 ≤ (frameBytes code body).length ∧ (frameBytes code body).length ≤ 32 := by
  rw [frameBytes_length]; omega

/-- A well-formed body fits a frame when each body of the right size does. -/
theorem body_length {α : Type} {f : α → List Byte} {ok : Nat → Bool} {b : Sized α} (h : b.fits ok = true)
    (hf : ∀ a, (f a).length ≤ 28) : (bodyBytes f b).length ≤ 28 := by
  cases b with
  | sized a => exact hf a
  | wrongSize l => simp only [Sized.fits, Bool.and_eq_true, decide_eq_true_eq] at h; exact h.1

theorem tab_length {α : Type} : ∀ {n : Nat} (t : Tab α n), t.toList.length = n
  | _, .nil => rfl
  | _, .cons _ t => by simp [Tab.toList, tab_length t]

namespace Sendable

/-- A command is a transaction of a port exactly when it is a command of that port, and a well-formed request frame holds
4 to 32 bytes (R173). -/
def Statement (i : Instr) : Prop :=
  (encode i).map Prod.fst = hostPort i
    ∧ (i.wellFormed = true → (requestOf i).isSome = true → ∀ x, encode i = some x → 4 ≤ x.2.length ∧ x.2.length ≤ 32)

/-- An event of the chain or of the head is no transaction. -/
theorem of_event {i : Instr} (h1 : encode i = none) (h2 : hostPort i = none) : Statement i :=
  ⟨by rw [h1, h2]; rfl, fun _ _ x hx => by rw [h1] at hx; cases hx⟩

/-- A request is the frame of its body. -/
theorem of_request {i : Instr} {p : Port} {code : Byte} {body : List Byte} (h1 : encode i = some (p, frameBytes code body))
    (h2 : hostPort i = some p) (h3 : i.wellFormed = true → body.length ≤ 28) : Statement i := by
  refine ⟨by rw [h1, h2]; rfl, fun hw _ x hx => ?_⟩
  rw [h1] at hx
  cases hx
  exact frame_length (h3 hw)

theorem deviceReset : Statement .deviceReset := of_event rfl rfl
theorem cycleStart (mediaIn : Tab Sample 64) (order : List CycleAct) : Statement (.cycleStart mediaIn order) := of_event rfl rfl
theorem trailArrival (up : UpPass) (order : TrailOrder) : Statement (.trailArrival up order) := of_event rfl rfl
theorem receiveWindowClose (order : TrailOrder) : Statement (.receiveWindowClose order) := of_event rfl rfl
theorem leaseExpiry (p : Port) : Statement (.leaseExpiry p) := of_event rfl rfl
theorem probeDue : Statement .probeDue := of_event rfl rfl
theorem bringupSeek : Statement .bringupSeek := of_event rfl rfl
theorem switchCycle : Statement .switchCycle := of_event rfl rfl
theorem batchFormation : Statement .batchFormation := of_event rfl rfl
theorem isolationRecovery (hop : Nat) : Statement (.isolationRecovery hop) := of_event rfl rfl
theorem breakDetected (meet : Meet) : Statement (.breakDetected meet) := of_event rfl rfl
theorem quietCountComplete (position : Nat) : Statement (.quietCountComplete position) := of_event rfl rfl
theorem resyncEntry : Statement .resyncEntry := of_event rfl rfl
theorem prepareTimeout (meet : Meet) : Statement (.prepareTimeout meet) := of_event rfl rfl
theorem settleEnd (meet : Meet) : Statement (.settleEnd meet) := of_event rfl rfl
theorem resetRelease : Statement .resetRelease := of_event rfl rfl

theorem frameError (p : Port) (bytes : List Byte) : Statement (.frameError p bytes) :=
  ⟨rfl, fun _ h => absurd h (by simp [requestOf])⟩
theorem badRequest (p : Port) (code : Byte) (body : List Byte) : Statement (.badRequest p code body) :=
  ⟨rfl, fun _ h => absurd h (by simp [requestOf])⟩
theorem responseRead (p : Port) (clocks : Nat) : Statement (.responseRead p clocks) :=
  ⟨rfl, fun _ h => absurd h (by simp [requestOf])⟩

theorem attach (p : Port) (lease : Sized Byte) : Statement (.attach p lease) :=
  of_request rfl rfl fun h => body_length (ok := (· == 1)) h fun _ => by simp
theorem draftClose (p : Port) (handle : Sized Byte) : Statement (.draftClose p handle) :=
  of_request rfl rfl fun h => body_length (ok := (· == 1)) h fun _ => by simp
theorem draftDrop (p : Port) (index : Sized Byte) : Statement (.draftDrop p index) :=
  of_request rfl rfl fun h => body_length (ok := (· == 1)) h fun _ => by simp
theorem draftView (p : Port) (first : Sized Byte) : Statement (.draftView p first) :=
  of_request rfl rfl fun h => body_length (ok := (· == 1)) h fun _ => by simp
theorem commit (p : Port) (flags : Sized Byte) : Statement (.commit p flags) :=
  of_request rfl rfl fun h => body_length (ok := (· == 1)) h fun _ => by simp
theorem streamInfo (p : Port) (handle : Sized Byte) : Statement (.streamInfo p handle) :=
  of_request rfl rfl fun h => body_length (ok := (· == 1)) h fun _ => by simp
theorem listStreams (p : Port) (first : Sized Byte) : Statement (.listStreams p first) :=
  of_request rfl rfl fun h => body_length (ok := (· == 1)) h fun _ => by simp
theorem chainInfo (p : Port) (position : Sized Byte) : Statement (.chainInfo p position) :=
  of_request rfl rfl fun h => body_length (ok := (· == 1)) h fun _ => by simp
theorem readQueue (p : Port) (n : Sized Byte) : Statement (.readQueue p n) :=
  of_request rfl rfl fun h => body_length (ok := (· == 1)) h fun _ => by simp
theorem detach (p : Port) (body : Sized Unit) : Statement (.detach p body) :=
  of_request rfl rfl fun h => body_length (ok := (· == 0)) h fun _ => by simp
theorem portStatus (p : Port) (body : Sized Unit) : Statement (.portStatus p body) :=
  of_request rfl rfl fun h => body_length (ok := (· == 0)) h fun _ => by simp
theorem draftClear (p : Port) (body : Sized Unit) : Statement (.draftClear p body) :=
  of_request rfl rfl fun h => body_length (ok := (· == 0)) h fun _ => by simp
theorem withdraw (p : Port) (body : Sized Unit) : Statement (.withdraw p body) :=
  of_request rfl rfl fun h => body_length (ok := (· == 0)) h fun _ => by simp
theorem planInfo (p : Port) (body : Sized Unit) : Statement (.planInfo p body) :=
  of_request rfl rfl fun h => body_length (ok := (· == 0)) h fun _ => by simp
theorem chainRestart (p : Port) (body : Sized Unit) : Statement (.chainRestart p body) :=
  of_request rfl rfl fun h => body_length (ok := (· == 0)) h fun _ => by simp
theorem draftResize (p : Port) (args : Sized ResizeArgs) : Statement (.draftResize p args) :=
  of_request rfl rfl fun h => body_length (ok := (· == 2)) h fun _ => by simp
theorem draftSet (p : Port) (args : Sized SetArgs) : Statement (.draftSet p args) :=
  of_request rfl rfl fun h => body_length (ok := (· == 2)) h fun _ => by simp
theorem remoteRead (p : Port) (args : Sized ReadArgs) : Statement (.remoteRead p args) :=
  of_request rfl rfl fun h => body_length (ok := (· == 4)) h fun _ => by simp
theorem subscribe (p : Port) (args : Sized SubscribeArgs) : Statement (.subscribe p args) :=
  of_request rfl rfl fun h => body_length (ok := (· == 2)) h fun _ => by simp
theorem draftOpen (p : Port) (args : Sized OpenArgs) : Statement (.draftOpen p args) :=
  of_request rfl rfl fun h => body_length (ok := (· == 9)) h fun a => by simp [tab_length, bytes16]
theorem remoteWrite (p : Port) (args : Sized WriteArgs) : Statement (.remoteWrite p args) :=
  of_request rfl rfl fun h => by
    cases args with
    | sized a =>
      have h : (decide (1 ≤ a.data.length) && decide (a.data.length ≤ 4)) = true := h
      simp only [Bool.and_eq_true, decide_eq_true_eq] at h
      simp only [bodyBytes, List.length_cons]
      omega
    | wrongSize l =>
      have h : (decide (l.length ≤ 28) && !writeSize l.length) = true := h
      simp only [Bool.and_eq_true, decide_eq_true_eq] at h
      exact h.1

end Sendable

end Sys2Proof.Laws
end

