-- ==== Sys2Proof/Laws/Placement.lean ====
section
/-! SUPPORT. Lane Placement: what first fit and compaction give, and that every op of a batch keeps the runs of a plan within
lanes 0 to 63 and apart. -/

namespace Sys2Proof.Machine

/-! ### Runs -/

/-- The runs of two plan entries in one pass hold no lane in common. -/
def apartIn (pass : Pass) (a b : PlanEntry) : Prop := ∀ i, ¬(a.covers pass i = true ∧ b.covers pass i = true)

/-- The run of an entry in a pass lies within lanes 0 to 63. -/
def insideIn (pass : Pass) (a : PlanEntry) : Prop := ∀ f, a.first pass = some f → f + a.lanes ≤ Config.lanes

/-- R21 for one pass of a plan. -/
def passOk (w : Plan) (pass : Pass) : Prop := (∀ e ∈ w, insideIn pass e) ∧ w.Pairwise (apartIn pass)

theorem planOk_iff (w : Plan) : planOk w ↔ ∀ pass, passOk w pass := by
  unfold planOk passOk
  constructor
  · intro h pass
    exact ⟨fun e he f => h.1 e he pass f, h.2.imp fun ab i => ab pass i⟩
  · intro h
    refine ⟨fun e he pass f hf => (h pass).1 e he f hf, ?_⟩
    have h1 := (h .down).2
    have h2 := (h .up).2
    clear h
    induction w with
    | nil => exact .nil
    | cons a w ih =>
      rw [List.pairwise_cons] at h1 h2 ⊢
      refine ⟨fun b hb pass i => ?_, ih h1.2 h2.2⟩
      cases pass
      · exact h1.1 b hb i
      · exact h2.1 b hb i

theorem apartIn_symm {pass : Pass} {a b : PlanEntry} (h : apartIn pass a b) : apartIn pass b a := fun i hi => h i ⟨hi.2, hi.1⟩

theorem covers_iff (e : PlanEntry) (pass : Pass) (i : Nat) :
    e.covers pass i = true ↔ ∃ f, e.first pass = some f ∧ f ≤ i ∧ i < f + e.lanes := by
  unfold PlanEntry.covers
  cases h : e.first pass <;> simp

theorem laneFree_iff (w : Plan) (pass : Pass) (i : Nat) : laneFree w pass i = true ↔ ∀ e ∈ w, e.covers pass i = false := by
  simp [laneFree]

/-- Lanes f to f + n − 1 lie in the pass and are free. -/
theorem runFree_iff (w : Plan) (pass : Pass) (f n : Nat) :
    runFree w pass f n = true ↔ f + n ≤ Config.lanes ∧ ∀ i, f ≤ i → i < f + n → laneFree w pass i = true := by
  simp [runFree, List.mem_range'_1]

/-- R25: a run that first fit gives is free. -/
theorem firstFit_free {w : Plan} {pass : Pass} {n f : Nat} (h : firstFit w pass n = some f) : runFree w pass f n = true :=
  List.find?_some (p := fun f => runFree w pass f n) h

/-- An entry whose run in a pass takes only free lanes is apart from every entry of the plan. -/
theorem apartIn_of_free {w : Plan} {pass : Pass} {f n : Nat} (h : runFree w pass f n = true) {e : PlanEntry}
    (he : e.first pass = some f) (hn : e.lanes = n) {x : PlanEntry} (hx : x ∈ w) : apartIn pass e x := by
  rintro i ⟨h1, h2⟩
  obtain ⟨g, hg, ha, hb⟩ := (covers_iff e pass i).1 h1
  rw [he] at hg
  cases hg
  have := (laneFree_iff w pass i).1 (((runFree_iff w pass f n).1 h).2 i ha (hn ▸ hb)) x hx
  rw [this] at h2
  cases h2

/-! ### Insertion and removal -/

theorem mem_insertEntry (e x : PlanEntry) (w : Plan) : x ∈ insertEntry e w ↔ x = e ∨ x ∈ w := by
  induction w with
  | nil => simp [insertEntry]
  | cons a w ih =>
    unfold insertEntry
    split
    · simp
    · simp only [List.mem_cons, ih]; tauto

theorem passOk_insert {w : Plan} {pass : Pass} {e : PlanEntry} (h : passOk w pass) (h1 : insideIn pass e)
    (h2 : ∀ x ∈ w, apartIn pass e x) : passOk (insertEntry e w) pass := by
  refine ⟨fun x hx => ?_, ?_⟩
  · rcases (mem_insertEntry e x w).1 hx with rfl | hx
    · exact h1
    · exact h.1 x hx
  · have hp := h.2
    clear h h1
    induction w with
    | nil => exact List.pairwise_singleton _ _
    | cons a w ih =>
      unfold insertEntry
      split
      · exact List.pairwise_cons.2 ⟨h2, hp⟩
      · rw [List.pairwise_cons] at hp ⊢
        refine ⟨fun x hx => ?_, ih (fun x hx => h2 x (List.mem_cons_of_mem _ hx)) hp.2⟩
        rcases (mem_insertEntry e x w).1 hx with rfl | hx
        · exact apartIn_symm (h2 a (List.mem_cons_self ..))
        · exact hp.1 x hx

theorem passOk_without {w : Plan} {pass : Pass} (h : passOk w pass) (k : Handle) : passOk (without w k) pass :=
  ⟨fun e he => h.1 e (List.mem_of_mem_filter he), h.2.filter _⟩

/-- A stream taken out of a plan is apart from what is left. -/
theorem apartIn_without {w : Plan} {pass : Pass} (h : passOk w pass) {e x : PlanEntry} (he : e ∈ w)
    (hx : x ∈ without w e.handle) : apartIn pass e x := by
  have hx' := List.mem_filter.1 hx
  have hne : x ≠ e := by rintro rfl; simp at hx'
  rcases List.append_of_mem he with ⟨as, bs, rfl⟩
  have hp := List.pairwise_append.1 h.2
  rcases List.mem_append.1 hx'.1 with hm | hm
  · exact apartIn_symm (hp.2.2 x hm e (List.mem_cons_self ..))
  · exact (List.pairwise_cons.1 hp.2.1).1 x ((List.mem_cons.1 hm).resolve_left hne)

/-! ### Compaction (R39) -/

/-- The lanes of one entry's run in a pass, when it begins below a lane. -/
def laneShare (e : PlanEntry) (pass : Pass) (g : Nat) : Nat :=
  match e.first pass with
  | some k => if k < g then e.lanes else 0
  | none => 0

theorem lanesBelow_cons (a : PlanEntry) (w : Plan) (pass : Pass) (g : Nat) :
    lanesBelow (a :: w) pass g = laneShare a pass g + lanesBelow w pass g := rfl

theorem laneShare_mono (e : PlanEntry) (pass : Pass) {f g : Nat} (h : f ≤ g) : laneShare e pass f ≤ laneShare e pass g := by
  unfold laneShare
  split
  · split <;> split <;> omega
  · exact Nat.le_refl _

theorem lanesBelow_mono (w : Plan) (pass : Pass) {f g : Nat} (h : f ≤ g) : lanesBelow w pass f ≤ lanesBelow w pass g := by
  induction w with
  | nil => exact Nat.le_refl _
  | cons a w ih => rw [lanesBelow_cons, lanesBelow_cons]; exact Nat.add_le_add (laneShare_mono a pass h) ih

/-- A run and the runs below it end at or before the runs below any higher run. -/
theorem lanesBelow_step (w : Plan) (pass : Pass) {e : PlanEntry} (he : e ∈ w) {f g : Nat} (hf : e.first pass = some f)
    (h : f < g) : lanesBelow w pass f + e.lanes ≤ lanesBelow w pass g := by
  induction w with
  | nil => cases he
  | cons a w ih =>
    rw [lanesBelow_cons, lanesBelow_cons]
    rcases List.mem_cons.1 he with rfl | he
    · have h1 := lanesBelow_mono w pass (Nat.le_of_lt h)
      have h2 : laneShare e pass f = 0 := by simp [laneShare, hf]
      have h3 : laneShare e pass g = e.lanes := by simp [laneShare, hf, h]
      omega
    · have := ih he
      have := laneShare_mono a pass (Nat.le_of_lt h)
      omega

/-- The runs that begin below a lane g, none of which passes a bound b, hold no more lanes than b. -/
theorem lanesBelow_le (w : Plan) (pass : Pass) (h : w.Pairwise (apartIn pass)) (g b : Nat)
    (hb : ∀ e ∈ w, ∀ f, e.first pass = some f → f < g → 0 < e.lanes → f + e.lanes ≤ b) : lanesBelow w pass g ≤ b := by
  -- the lanes below g are distinct lanes below b
  have key : ∀ w : Plan, w.Pairwise (apartIn pass) →
      (∀ e ∈ w, ∀ f, e.first pass = some f → f < g → 0 < e.lanes → f + e.lanes ≤ b) →
      ∃ s : Finset Nat, s ⊆ Finset.range b ∧ s.card = lanesBelow w pass g
        ∧ ∀ i ∈ s, ∃ e ∈ w, e.covers pass i = true := by
    intro w
    induction w with
    | nil => intro _ _; exact ⟨∅, by simp, by simp [lanesBelow], by simp⟩
    | cons a w ih =>
      intro hp hw
      rw [List.pairwise_cons] at hp
      obtain ⟨s, h1, h2, h3⟩ := ih hp.2 fun e he => hw e (List.mem_cons_of_mem _ he)
      cases ha : a.first pass with
      | none =>
        refine ⟨s, h1, by rw [lanesBelow_cons, h2]; simp [laneShare, ha], fun i hi => ?_⟩
        obtain ⟨e, he, hc⟩ := h3 i hi
        exact ⟨e, List.mem_cons_of_mem _ he, hc⟩
      | some f =>
        by_cases hfg : f < g
        · refine ⟨Finset.Ico f (f + a.lanes) ∪ s, ?_, ?_, fun i hi => ?_⟩
          · intro i hi
            rcases Finset.mem_union.1 hi with hi | hi
            · rw [Finset.mem_Ico] at hi
              have := hw a (List.mem_cons_self ..) f ha hfg (by omega)
              rw [Finset.mem_range]; omega
            · exact h1 hi
          · rw [Finset.card_union_of_disjoint, lanesBelow_cons, h2]
            · simp [laneShare, ha, hfg]
            · rw [Finset.disjoint_left]
              intro i hi hs
              obtain ⟨e, he, hc⟩ := h3 i hs
              rw [Finset.mem_Ico] at hi
              exact hp.1 e he i ⟨(covers_iff a pass i).2 ⟨f, ha, hi.1, hi.2⟩, hc⟩
          · rcases Finset.mem_union.1 hi with hi | hi
            · rw [Finset.mem_Ico] at hi
              exact ⟨a, List.mem_cons_self .., (covers_iff a pass i).2 ⟨f, ha, hi.1, hi.2⟩⟩
            · obtain ⟨e, he, hc⟩ := h3 i hi
              exact ⟨e, List.mem_cons_of_mem _ he, hc⟩
        · refine ⟨s, h1, by rw [lanesBelow_cons, h2]; simp [laneShare, ha, hfg], fun i hi => ?_⟩
          obtain ⟨e, he, hc⟩ := h3 i hi
          exact ⟨e, List.mem_cons_of_mem _ he, hc⟩
  obtain ⟨s, h1, h2, -⟩ := key w h hb
  rw [← h2]
  simpa using Finset.card_le_card h1

theorem first_setFirst (e : PlanEntry) (pass q : Pass) (f : Option Nat) :
    (e.setFirst pass f).first q = if q = pass then f else e.first q := by
  cases pass <;> cases q <;> rfl

@[simp] theorem lanes_setFirst (e : PlanEntry) (pass : Pass) (f : Option Nat) : (e.setFirst pass f).lanes = e.lanes := by
  cases pass <;> rfl

@[simp] theorem handle_setFirst (e : PlanEntry) (pass : Pass) (f : Option Nat) : (e.setFirst pass f).handle = e.handle := by
  cases pass <;> rfl

/-- The run of a stream in the compacted pass. -/
def compacted (w : Plan) (pass : Pass) (e : PlanEntry) : PlanEntry :=
  match e.first pass with
  | some f => e.setFirst pass (some (lanesBelow w pass f))
  | none => e

theorem compact_eq (w : Plan) (pass : Pass) : compact w pass = w.map (compacted w pass) := rfl

theorem compacted_lanes (w : Plan) (pass : Pass) (e : PlanEntry) : (compacted w pass e).lanes = e.lanes := by
  unfold compacted; split <;> simp

theorem compacted_first (w : Plan) (pass q : Pass) (e : PlanEntry) :
    (compacted w pass e).first q = if q = pass then (e.first pass).map (lanesBelow w pass) else e.first q := by
  unfold compacted
  split
  · next f hf => rw [first_setFirst, hf]; rfl
  · next hf =>
    split
    · next h => rw [h, hf]; rfl
    · rfl

/-- Compaction leaves the other pass. -/
theorem passOk_compact_other {w : Plan} {pass q : Pass} (hq : q ≠ pass) (h : passOk w q) : passOk (compact w pass) q := by
  have hc : ∀ e i, (compacted w pass e).covers q i = e.covers q i := by
    intro e i
    unfold PlanEntry.covers
    rw [compacted_first, if_neg hq, compacted_lanes]
  rw [compact_eq]
  refine ⟨fun e he => ?_, ?_⟩
  · obtain ⟨x, hx, rfl⟩ := List.mem_map.1 he
    intro f hf
    rw [compacted_first, if_neg hq] at hf
    rw [compacted_lanes]
    exact h.1 x hx f hf
  · rw [List.pairwise_map]
    exact h.2.imp fun ab i => by rw [hc, hc]; exact ab i

/-- R39: a compacted pass is in order again. -/
theorem passOk_compact {w : Plan} {pass : Pass} (h : passOk w pass) : passOk (compact w pass) pass := by
  rw [compact_eq]
  have hfirst : ∀ e, (compacted w pass e).first pass = (e.first pass).map (lanesBelow w pass) := fun e => by
    rw [compacted_first, if_pos rfl]
  refine ⟨fun e he => ?_, ?_⟩
  · obtain ⟨x, hx, rfl⟩ := List.mem_map.1 he
    intro f hf
    rw [hfirst] at hf
    rw [compacted_lanes]
    cases hx1 : x.first pass with
    | none => rw [hx1] at hf; cases hf
    | some g =>
      rw [hx1] at hf
      cases hf
      have h1 := lanesBelow_step w pass hx hx1 (Nat.lt_add_one g)
      have h2 := lanesBelow_le w pass h.2 (g + 1) Config.lanes fun e he f hf _ _ => h.1 e he f hf
      omega
  · rw [List.pairwise_map]
    refine h.2.imp_of_mem ?_
    rintro a b ha hb hab i ⟨h1, h2⟩
    obtain ⟨f, hf, h3, h4⟩ := (covers_iff _ _ _).1 h1
    obtain ⟨g, hg, h5, h6⟩ := (covers_iff _ _ _).1 h2
    rw [hfirst] at hf hg
    rw [compacted_lanes] at h4 h6
    cases ha1 : a.first pass with
    | none => rw [ha1] at hf; cases hf
    | some f0 =>
      cases hb1 : b.first pass with
      | none => rw [hb1] at hg; cases hg
      | some g0 =>
        rw [ha1] at hf
        rw [hb1] at hg
        cases hf
        cases hg
        rcases Nat.lt_trichotomy f0 g0 with hlt | heq | hgt
        · have := lanesBelow_step w pass ha ha1 hlt; omega
        · subst heq
          exact hab f0 ⟨(covers_iff _ _ _).2 ⟨f0, ha1, Nat.le_refl _, by omega⟩,
            (covers_iff _ _ _).2 ⟨f0, hb1, Nat.le_refl _, by omega⟩⟩
        · have := lanesBelow_step w pass hb hb1 hgt; omega

/-! ### Placing (R25, R29, R33, R40) -/

/-- What a placement in one pass gives: the plan itself or its pass compacted, and a run of lanes free in it. -/
theorem placeRun_cases {repack : Bool} {n : Nat} {w w' : Plan} {pass : Pass} {f : Nat}
    (h : placeRun repack n w pass = .ok (w', f)) : (w' = w ∨ w' = compact w pass) ∧ runFree w' pass f n = true := by
  unfold placeRun at h
  split at h
  · next g hg => cases h; exact ⟨.inl rfl, firstFit_free hg⟩
  · split at h
    · split at h
      · next g hg => cases h; exact ⟨.inr rfl, firstFit_free hg⟩
      · cases h
    · cases h

/-- A run given to an entry in one pass keeps clear of the plan that the placement gives, when `r` says so of the entry. -/
theorem passOk_placed {w w' : Plan} {pass q : Pass} (h : passOk w q) (hw : w' = w ∨ w' = compact w pass) : passOk w' q := by
  rcases hw with rfl | rfl
  · exact h
  · by_cases hq : q = pass
    · subst hq; exact passOk_compact h
    · exact passOk_compact_other hq h

/-- An entry apart from every stream of a plan stays so when another pass is compacted. -/
theorem apartIn_placed {w w' : Plan} {pass q : Pass} (hq : q ≠ pass) (hw : w' = w ∨ w' = compact w pass) {e : PlanEntry}
    (h : ∀ x ∈ w, apartIn q e x) : ∀ x ∈ w', apartIn q e x := by
  rcases hw with rfl | rfl
  · exact h
  · intro x hx
    rw [compact_eq] at hx
    obtain ⟨y, hy, rfl⟩ := List.mem_map.1 hx
    intro i hi
    refine h y hy i ⟨hi.1, ?_⟩
    have : (compacted w pass y).covers q i = y.covers q i := by
      unfold PlanEntry.covers
      rw [compacted_first, if_neg hq, compacted_lanes]
    rw [← this]; exact hi.2

/-- What a run maker gives an entry: its pass as it was or compacted, and a free run of `n` lanes. -/
def Places (e : PlanEntry) (n : Nat) (run : Plan → Pass → Except FailReason (Plan × Nat)) : Prop :=
  ∀ w pass w' f, (∀ x ∈ w, apartIn pass e x) → run w pass = .ok (w', f) →
    (w' = w ∨ w' = compact w pass) ∧ runFree w' pass f n = true

theorem placeRun_places (e : PlanEntry) (repack : Bool) (n : Nat) : Places e n (placeRun repack n) :=
  fun _ _ _ _ _ h => placeRun_cases h

/-- A grow in place takes the lanes above its own run; else it is placed anew. -/
theorem growRun_places (e : PlanEntry) (repack : Bool) (n : Nat) (hn : e.lanes ≤ n) : Places e n (growRun repack e n) := by
  intro w pass w' f ha h
  unfold growRun at h
  split at h
  · next g hg =>
    split at h
    · next hr =>
      cases h
      refine ⟨.inl rfl, (runFree_iff ..).2 ?_⟩
      have hr := (runFree_iff ..).1 hr
      refine ⟨by omega, fun i h1 h2 => ?_⟩
      by_cases hi : i < f + e.lanes
      · rw [laneFree_iff]
        intro x hx
        by_contra hc
        exact ha x hx i ⟨(covers_iff ..).2 ⟨f, hg, h1, hi⟩, by simpa using hc⟩
      · exact hr.2 i (by omega) (by omega)
    · exact placeRun_cases h
  · exact placeRun_cases h

/-- An entry given runs of `n` lanes in the passes listed, when it had none in the others: the plan that results is in
order, and the entry with `n` lanes keeps clear of it. -/
theorem placePasses_ok {e0 : PlanEntry} {n : Nat} {run : Plan → Pass → Except FailReason (Plan × Nat)} (hrun : Places e0 n run)
    (passes : List Pass) (hnd : passes.Nodup) (w w' : Plan) (e e' : PlanEntry)
    (hw : ∀ q, passOk w q) (h0 : ∀ q ∈ passes, ∀ x ∈ w, apartIn q e0 x)
    (hin : ∀ q, q ∉ passes → insideIn q { e with lanes := n })
    (hap : ∀ q, q ∉ passes → ∀ x ∈ w, apartIn q { e with lanes := n } x)
    (h : placePasses run passes w e = .ok (w', e')) :
    (∀ q, passOk w' q) ∧ (∀ q, insideIn q { e' with lanes := n }) ∧ ∀ q, ∀ x ∈ w', apartIn q { e' with lanes := n } x := by
  induction passes generalizing w e with
  | nil =>
    simp only [placePasses, Except.ok.injEq, Prod.mk.injEq] at h
    obtain ⟨rfl, rfl⟩ := h
    exact ⟨hw, fun q => hin q (by simp), fun q => hap q (by simp)⟩
  | cons pass rest ih =>
    unfold placePasses at h
    split at h
    · next w1 f hr =>
      obtain ⟨h1, h2⟩ := hrun w pass w1 f (h0 pass (List.mem_cons_self ..)) hr
      have hnd' := List.nodup_cons.1 hnd
      have hfp : ({ e.setFirst pass (some f) with lanes := n } : PlanEntry).first pass = some f := by cases pass <;> rfl
      have hfo : ∀ q, q ≠ pass → ({ e.setFirst pass (some f) with lanes := n } : PlanEntry).first q
          = ({ e with lanes := n } : PlanEntry).first q := by
        intro q hq; cases q <;> cases pass <;> first | rfl | exact absurd rfl hq
      have hco : ∀ q, q ≠ pass → ∀ i, ({ e.setFirst pass (some f) with lanes := n } : PlanEntry).covers q i
          = ({ e with lanes := n } : PlanEntry).covers q i := by
        intro q hq i
        unfold PlanEntry.covers
        rw [hfo q hq]
      refine ih hnd'.2 w1 (e.setFirst pass (some f)) (fun q => passOk_placed (hw q) h1) ?_ ?_ ?_ h
      · intro q hq
        have hne : q ≠ pass := fun e => hnd'.1 (e ▸ hq)
        exact apartIn_placed hne h1 (h0 q (List.mem_cons_of_mem _ hq))
      · intro q hq g hg
        by_cases hne : q = pass
        · subst hne
          rw [hfp] at hg
          cases hg
          exact ((runFree_iff ..).1 h2).1
        · rw [hfo q hne] at hg
          exact hin q (by simp [hne, hq]) g hg
      · intro q hq
        by_cases hne : q = pass
        · subst hne
          intro x hx
          exact apartIn_of_free h2 hfp rfl hx
        · intro x hx i hi
          rw [hco q hne] at hi
          exact apartIn_placed hne h1 (hap q (by simp [hne, hq])) x hx i hi
    · cases h

theorem passesOf_nodup (source : Nat) (sinks : List Nat) : (passesOf source sinks).Nodup := by
  unfold passesOf; split <;> split <;> decide

theorem passes_nodup (e : PlanEntry) : e.passes.Nodup := by
  unfold PlanEntry.passes; split <;> split <;> decide

/-! ### The ops (R26 to R29) -/

theorem planOk_insert {w : Plan} {e : PlanEntry} (h : ∀ q, passOk w q) (h1 : ∀ q, insideIn q e)
    (h2 : ∀ q, ∀ x ∈ w, apartIn q e x) : planOk (insertEntry e w) :=
  (planOk_iff _).2 fun q => passOk_insert (h q) (h1 q) (h2 q)

/-- R26: an OPEN of a stream without placements. -/
theorem openOp_ok {c : ChainManager} {repack : Bool} {e : PlanEntry} {w w' : Working} (hw : planOk w.plan)
    (h1 : e.down = none) (h2 : e.up = none) (h : openOp c repack e w = .ok w') : planOk w'.plan := by
  have hn : ∀ q, e.first q = none := fun q => by cases q <;> assumption
  unfold openOp at h
  split at h
  · cases h
  · split at h
    · cases h
    · split at h
      · cases h
      · next others e' hp =>
        have hl : ∀ x : PlanEntry, x.lanes = e.lanes → ({ x with lanes := e.lanes } : PlanEntry) = x := by
          intro x hx; rw [← hx]
        have key := placePasses_ok (placeRun_places e repack e.lanes) _ (passesOf_nodup e.source e.sinks) w.plan others e e'
          ((planOk_iff _).1 hw) (fun q _ x _ i hi => by simp [PlanEntry.covers, hn] at hi)
          (fun q _ f hf => by simp [hn] at hf) (fun q _ x _ i hi => by simp [PlanEntry.covers, hn] at hi) hp
        have hlanes : ∀ (l : List Pass) (a b : Plan) (x y : PlanEntry),
            placePasses (placeRun repack e.lanes) l a x = .ok (b, y) → y.lanes = x.lanes := by
          intro l
          induction l with
          | nil => intro a b x y h; simp only [placePasses, Except.ok.injEq, Prod.mk.injEq] at h; rw [h.2]
          | cons p l ih =>
            intro a b x y h
            unfold placePasses at h
            split at h
            · rw [ih _ _ _ _ h, lanes_setFirst]
            · cases h
        rw [hl e' (hlanes _ _ _ _ _ hp)] at key
        split at h
        · cases h
        · split at h
          · cases h
          · cases h
            exact planOk_insert key.1 key.2.1 key.2.2

/-- R28: a shrink keeps the first lanes. -/
theorem shrinkOp_ok {e : PlanEntry} {n : Nat} {w : Working} (hw : planOk w.plan) (he : e ∈ w.plan) (hn : n ≤ e.lanes) :
    planOk (shrinkOp e n w).plan := by
  have hw := (planOk_iff _).1 hw
  have hc : ∀ q i, ({ e with lanes := n } : PlanEntry).covers q i = true → e.covers q i = true := by
    intro q i hi
    obtain ⟨f, h1, h2, h3⟩ := (covers_iff ..).1 hi
    exact (covers_iff ..).2 ⟨f, by cases q <;> exact h1, h2, Nat.lt_of_lt_of_le h3 (Nat.add_le_add_left hn f)⟩
  refine planOk_insert (fun q => passOk_without (hw q) _) (fun q f hf => ?_) fun q x hx i hi => ?_
  · have := (hw q).1 e he f (by cases q <;> exact hf)
    show f + n ≤ Config.lanes
    omega
  · exact apartIn_without (hw q) he hx i ⟨hc q i hi.1, hi.2⟩

/-- R29, R40: a grow. -/
theorem growOp_ok {c : ChainManager} {repack : Bool} {e : PlanEntry} {n : Nat} {w w' : Working} (hw : planOk w.plan)
    (he : e ∈ w.plan) (hn : e.lanes ≤ n) (h : growOp c repack e n w = .ok w') : planOk w'.plan := by
  have hw := (planOk_iff _).1 hw
  unfold growOp at h
  split at h
  · cases h
  · split at h
    · cases h
    · next others e' hp =>
      have hnone : ∀ q, q ∉ e.passes → e.first q = none := by
        intro q hq
        unfold PlanEntry.passes at hq
        cases q
        · cases hd : e.down with
          | none => exact hd
          | some d => simp [hd] at hq
        · cases hd : e.up with
          | none => exact hd
          | some d => simp [hd] at hq
      have hnone' : ∀ q, q ∉ e.passes → ({ e with lanes := n } : PlanEntry).first q = none := by
        intro q hq; have := hnone q hq; cases q <;> exact this
      have key := placePasses_ok (growRun_places e repack n hn) _ (passes_nodup e) (without w.plan e.handle) others e e'
        (fun q => passOk_without (hw q) _) (fun q _ x hx => apartIn_without (hw q) he hx)
        (fun q hq f hf => by rw [hnone' q hq] at hf; cases hf)
        (fun q hq x _ i hi => by
          obtain ⟨f, hf, -⟩ := (covers_iff ..).1 hi.1
          rw [hnone' q hq] at hf; cases hf) hp
      split at h
      · cases h
      · cases h
        exact planOk_insert key.1 key.2.1 key.2.2

theorem removeOp_ok {h : Handle} {w : Working} (hw : planOk w.plan) : planOk (removeOp h w).plan :=
  (planOk_iff _).2 fun q => passOk_without ((planOk_iff _).1 hw q) h

/-- R57: a validated working plan is in order when the active plan is. -/
theorem validate_ok (s : State) (h : planOk s.switch.plan) : planOk s.validate.work.plan := by
  have hop : ∀ forced c w op w', planOk w.plan → s.validateOp forced c w op = .ok w' → planOk w'.plan := by
    intro forced c w op w' hw ho
    have hnamed : ∀ k e, s.named c w k = some e → e ∈ w.plan := by
      intro k e he
      unfold State.named at he
      split at he
      · exact List.mem_of_find?_eq_some he
      · cases he
    cases op with
    | opening k a b d l => exact openOp_ok hw rfl rfl ho
    | closing k =>
      simp only [State.validateOp, closeOp] at ho
      split at ho
      · cases ho; exact hw
      · split at ho
        · cases ho; exact removeOp_ok hw
        · cases ho
    | resizing k n =>
      simp only [State.validateOp, resizeOp] at ho
      split at ho
      · cases ho
      · next e he =>
        split at ho
        · cases ho
        · split at ho
          · next hn => cases ho; exact shrinkOp_ok hw (hnamed k e he) hn
          · next hn => exact growOp_ok hw (hnamed k e he) (by omega) ho
    | setting k v => cases ho; exact hw
  have hops : ∀ forced c ops i w w', planOk w.plan → s.validateOps forced c i ops w = .ok w' → planOk w'.plan := by
    intro forced c ops
    induction ops with
    | nil => intro i w w' hw ho; cases ho; exact hw
    | cons op ops ih =>
      intro i w w' hw ho
      unfold State.validateOps at ho
      split at ho
      · next w1 h1 => exact ih _ _ _ (hop _ _ _ _ _ hw h1) ho
      · cases ho
  have hcommits : ∀ (l : List CommitEntry) (v : Validation), planOk v.work.plan →
      planOk (l.foldl (s.validateCommit s.marked) v).work.plan := by
    intro l
    induction l with
    | nil => intro v hv; exact hv
    | cons c l ih =>
      intro v hv
      refine ih _ ?_
      unfold State.validateCommit
      split
      · next w hw => exact hops _ _ _ _ _ _ hv hw
      · exact hv
  have hforced : ∀ (l : List Handle) (w : Working), planOk w.plan → planOk (l.foldl (fun w h => removeOp h w) w).plan := by
    intro l
    induction l with
    | nil => intro w hw; exact hw
    | cons k l ih => intro w hw; exact ih _ (removeOp_ok hw)
  exact hcommits _ _ (hforced _ _ h)

end Sys2Proof.Machine
end

