-- ==== Sys2Proof/Tests/Slice0.lean ====
section
/-! SUPPORT. Tests of the model: the smoke test of the well-formedness checks, wire examples worked out from the manual, one
step of commands on small states, and for each obligation with hypotheses a state and operands that meet them. -/

namespace Sys2Proof.Tests

-- one theorem at a time: hundreds of evaluations at once would each take a thread
set_option Elab.async false

open Sys2Proof Sys2Proof.Machine

/-! ### Helpers -/

/-- The state a command leaves. -/
def after (c : Instr) (s : State) : State :=
  match exec c s with
  | .next t => t
  | .fault _ => s
  | .refused _ => s

/-- The state one step leaves with a command at the front of the queue. -/
def stepped (c : Instr) (s : State) : State :=
  match step { s with pending := [c] } with
  | .next t => t
  | .fault _ => s
  | .refused _ => s

/-- An ATTACHED port in session 1 with a lease of one unit. -/
def session1 : PortContext := { PortContext.reset with state := .attached, session := 1, lease := 1, leaseCount := some 1024 }

/-- The head with H0 ATTACHED. -/
def attached0 : State := State.reset.setPort 0 session1

/-- A unit READY at a position. -/
def readyEntry : ChainEntry :=
  { ChainEntry.reset with state := .ready
                          identity := some { kind := 1#8, revision := 0#8, serial := 7#32, sourceLimit := 16, sinkLimit := 16 } }

/-- A chain of two READY units, RUNNING, with H0 ATTACHED. -/
def twoUnits : State :=
  attached0.setChain ((({ ChainManager.reset with state := .running, bringUp := none }).setEntry 1 readyEntry).setEntry 2 readyEntry)

/-- A stream of H0's session from the head to position 1, 4 lanes from lane 0 of the down pass. -/
def stream0 : Stream :=
  { Stream.free with state := .live, owner := some (0, 1), source := 0, sinks := [1], lanes := 4, down := some 0 }

/-- Its entry in the plan. -/
def planned0 : PlanEntry :=
  { handle := 0, owner := some (0, 1), source := 0, sinks := [1], lanes := 4, down := some 0, up := none }

/-- `twoUnits` with that stream LIVE. -/
def oneStream : State :=
  (twoUnits.setStream 0 stream0).setSwitch { SwitchEngine.reset with plan := [planned0] }

/-- The body of DRAFT_OPEN for a stream of 4 lanes from the head to position 1. -/
def openArgs : OpenArgs :=
  { source := 0#8, sinkCount := 1#8, slots := .cons 1#8 (.cons 0#8 (.cons 0#8 (.cons 0#8 .nil))), lanes := 4#8, label := 0x1234#16 }

/-- The status of the response in a port's slot. -/
def statusOf (s : State) (p : Port) : Option Status := (s.port p).slot.map Response.status

/-! ### The smoke test of the well-formedness checks: one term each check refuses -/

theorem test_frame_error_that_is_good : (Instr.frameError 0 (frameBytes 0x01#8 [1#8])).wellFormed = false := by decide +kernel
theorem test_frame_error_that_is_read : (Instr.frameError 0 [0x5A#8]).wellFormed = false := by decide
theorem test_bad_request_known_code : (Instr.badRequest 0 0x15#8 []).wellFormed = false := by decide
theorem test_bad_request_too_long : (Instr.badRequest 0 0x16#8 (List.replicate 29 0#8)).wellFormed = false := by
  decide +kernel
theorem test_wrong_size_that_is_right : (Instr.attach 0 (.wrongSize [1#8])).wellFormed = false := by decide
theorem test_wrong_size_that_is_empty : (Instr.detach 0 (.wrongSize [])).wellFormed = false := by decide
theorem test_wrong_size_too_long : (Instr.commit 0 (.wrongSize (List.replicate 29 0#8))).wellFormed = false := by decide
theorem test_open_wrong_size_that_is_right : (Instr.draftOpen 0 (.wrongSize (List.replicate 9 0#8))).wellFormed = false := by
  decide
theorem test_write_without_data :
    (Instr.remoteWrite 0 (.sized { target := 1#8, address := 0#8, length := 1#8, tag := 0#8, data := [] })).wellFormed = false := by
  decide
theorem test_write_wrong_size_that_is_right : (Instr.remoteWrite 0 (.wrongSize (List.replicate 8 0#8))).wellFormed = false := by
  decide
theorem test_recovery_of_hop_0 : (Instr.isolationRecovery 0).wellFormed = false := by decide
theorem test_quiet_count_of_position_16 : (Instr.quietCountComplete 16).wellFormed = false := by decide
theorem test_well_formed_terms :
    (Instr.badRequest 0 0x16#8 []).wellFormed = true ∧ (Instr.attach 0 (.wrongSize [])).wellFormed = true
      ∧ (Instr.isolationRecovery 15).wellFormed = true := by
  decide

/-! ### Wire examples -/

/-- R180, R181: the checks of the nine bytes 31h to 39h, the usual check input of cyclic codes, worked out from the generators of the manual. -/
theorem test_check_values :
    hostCrc [0x31#8, 0x32#8, 0x33#8, 0x34#8, 0x35#8, 0x36#8, 0x37#8, 0x38#8, 0x39#8] = 0xF4#8
      ∧ blockCheck [0x31#8, 0x32#8, 0x33#8, 0x34#8, 0x35#8, 0x36#8, 0x37#8, 0x38#8, 0x39#8] = 0x29B1#16
      ∧ trailCheck [0x31#8, 0x32#8, 0x33#8, 0x34#8, 0x35#8, 0x36#8, 0x37#8, 0x38#8, 0x39#8] = 0x20#8 := by
  decide +kernel

/-- Section 11.5: the COMMIT(REPACK) of H1 on the wire, its CRC-8 worked out apart from the model. -/
theorem test_commit_frame :
    decodeTransaction 1 [0xA5#8, 0x05#8, 0x0B#8, 0x01#8, 0xE1#8] = .commit 1 (.sized 1#8)
      ∧ decodeTransaction 1 [0xA5#8, 0x05#8, 0x0B#8, 0x01#8, 0xE0#8]
        = .frameError 1 [0xA5#8, 0x05#8, 0x0B#8, 0x01#8, 0xE0#8] := by
  decide +kernel

/-- Section 11.5: the ACCEPTED response frame; R180: the empty frame. -/
theorem test_response_frames :
    (reply .accepted).bytes false = [0x01#8, 0x00#8, 0x15#8] ∧ emptyFrame = [0xFF#8, 0x00#8, 0xD7#8] := by
  decide +kernel

/-- Section 11.5: the 18 bytes of COMMIT_REJECTED(1, FRAGMENTED) at stamp 0001_2A40h. -/
theorem test_queue_entry_bytes :
    QueueEntry.bytes { item := .notice (.commitRejected 1 .fragmented), stamp := 0x00012A40#32 }
      = [0x00#8, 0x02#8, 0x00#8, 0x00#8, 0x00#8, 0x01#8, 0x2A#8, 0x40#8, 0x03#8, 0x00#8, 0x00#8, 0x01#8, 0x00#8, 0x04#8, 0x00#8,
         0x00#8, 0x00#8, 0x00#8] := by
  decide +kernel

/-- Table 10-4: the codes at the ends of the table and beyond, with frames of 4 bytes and more. -/
theorem test_request_codes :
    decodeTransaction 0 (frameBytes 0x01#8 [2#8]) = .attach 0 (.sized 2#8)
      ∧ decodeTransaction 3 (frameBytes 0x11#8 []) = .chainRestart 3 (.sized ())
      ∧ decodeTransaction 0 (frameBytes 0x15#8 [4#8]) = .readQueue 0 (.sized 4#8)
      ∧ decodeTransaction 0 (frameBytes 0x16#8 []) = .badRequest 0 0x16#8 []
      ∧ decodeTransaction 2 (frameBytes 0x13#8 [0xFF#8, 0x20#8, 0x02#8, 0x07#8, 0xAA#8, 0xBB#8])
        = .remoteWrite 2 (.sized { target := 0xFF#8, address := 0x20#8, length := 2#8, tag := 7#8, data := [0xAA#8, 0xBB#8] }) := by
  decide +kernel

/-- R94, R96: a trail entry of position 2 with every flag set, ready token 5 and epoch 7, its check worked out apart from the
model; at another place it is invalid. -/
theorem test_trail_entry :
    readEntry 2 (Tab.ofList 0#8 6 [0x02#8, 0x0F#8, 0x05#8, 0x00#8, 0x07#8, 0x7D#8])
        = some { leadOk := true, controlSeen := true, eventPending := true, readyValid := true, token := 5#8, epoch := 7#16 }
      ∧ readEntry 1 (Tab.ofList 0#8 6 [0x02#8, 0x0F#8, 0x05#8, 0x00#8, 0x07#8, 0x7D#8]) = none := by
  decide +kernel

/-- Table 11-9: a lead block of cycle 1 with a SEEK to position 1, its check worked out apart from the model. -/
theorem test_lead_block_bytes :
    LeadBlock.bytes { cycle := 1#16, epoch := 0#16, countdown := 0, token := 0#8, msg := bareMessage 1 .seek }
      = [0x00#8, 0x01#8, 0x00#8, 0x00#8, 0x00#8, 0x00#8, 0x01#8, 0x02#8, 0#8, 0#8, 0#8, 0#8, 0#8, 0#8, 0#8, 0#8, 0x6D#8, 0xD4#8] := by
  decide +kernel

/-- R97, Table 11-9: the answer to a SEEK to position 1, its check worked out apart from the model; for another target the
same bytes are no valid answer. -/
theorem test_answer_block :
    (validAnswer { client := some (.host 0), target := 1, kind := .seek }
        (Tab.ofList 0#8 13 [1#8, 2#8, 1#8, 0x11#8, 3#8, 0xDE#8, 0xAD#8, 0xBE#8, 0xEF#8, 16#8, 33#8, 0x5C#8, 0xB8#8])).isSome = true
      ∧ validAnswer { client := some (.host 0), target := 2, kind := .seek }
        (Tab.ofList 0#8 13 [1#8, 2#8, 1#8, 0x11#8, 3#8, 0xDE#8, 0xAD#8, 0xBE#8, 0xEF#8, 16#8, 33#8, 0x5C#8, 0xB8#8]) = none := by
  decide +kernel

/-- R106: a source limit of 16 is kept, a sink limit of 33 is stored as 32. -/
theorem test_identity_limits :
    (identityOf [0x11#8, 3#8, 0xDE#8, 0xAD#8, 0xBE#8, 0xEF#8, 16#8, 33#8]).map (fun i => (i.serial, i.sourceLimit, i.sinkLimit))
      = some (0xDEADBEEF#32, 16, 32) := by
  decide +kernel

/-! ### Worked examples of the manual -/

/-- The plan of Table 2-4 after step 1 of section 2.8, and the op of step 2. -/
def plan21 : Plan :=
  [{ handle := 0, owner := some (0, 1), source := 0, sinks := [3], lanes := 10, down := some 0, up := none },
   { handle := 2, owner := some (2, 1), source := 2, sinks := [0, 5], lanes := 16, down := some 22, up := some 0 },
   { handle := 3, owner := some (0, 1), source := 0, sinks := [6], lanes := 16, down := some 38, up := none }]

/-- Stream E of section 2.8. -/
def streamE : PlanEntry := { handle := 1, owner := some (3, 1), source := 0, sinks := [2], lanes := 14, down := none, up := none }

/-- The chain of section 2.8: six READY units, every limit 32. -/
def sixUnits : ChainManager :=
  (List.range' 1 6).foldl
    (fun c p => c.setEntry p { readyEntry with identity := readyEntry.identity.map fun i => { i with sourceLimit := 32, sinkLimit := 32 } })
    { ChainManager.reset with state := .running, bringUp := none }

/-- Section 2.8, step 1: 22 lanes are free in the down pass. -/
theorem test_free_count : freeCount plan21 .down = 22 ∧ freeCount plan21 .up = 48 := by decide +kernel

/-- Section 2.8, step 2: without REPACK the op fails FRAGMENTED; step 3: with it, Table 2-7. -/
theorem test_fragmented_and_repacked :
    openOp sixUnits false streamE { plan := plan21, closed := [] } = .error .fragmented
      ∧ (match openOp sixUnits true streamE { plan := plan21, closed := [] } with
          | .ok w => w.plan.map PlanEntry.down
          | .error _ => []) = [some 0, some 42, some 10, some 26] := by
  decide +kernel

/-- Table 2-8: the map of position 2 for epoch 22. -/
theorem test_map_order :
    mapOf [{ streamE with down := some 42 },
        { handle := 2, owner := some (2, 1), source := 2, sinks := [0, 5], lanes := 16, down := some 10, up := some 0 }] 2
      = [{ handle := 2, pass := .down, first := 10, lanes := 16, role := .source },
         { handle := 1, pass := .down, first := 42, lanes := 14, role := .sink },
         { handle := 2, pass := .up, first := 0, lanes := 16, role := .source }] := by
  decide +kernel

/-- Section 6.3's example: with m = 6, short reaches of 4, 5 and 4 lose position 6 alone. -/
theorem test_break_rule :
    (((sixUnits.countShort 4).countShort 5).breakLosses 4) = [6] ∧ ((sixUnits.countShort 4).countShort 5).broken = false := by
  decide +kernel

/-- A valid trail entry with the lead block taken or not. -/
def fields (ok : Bool) : TrailFields :=
  { leadOk := ok, controlSeen := false, eventPending := false, readyValid := false, token := 0#8, epoch := 0#16 }

/-- The trail of cycle 5001 of section 5.8. -/
def trail5001 : Trail :=
  { entries := (List.replicate 3 (some (fields true))) ++ List.replicate 2 (some (fields false)), missing := false }

/-- Section 5.8, cycle 5001: positions 4 and 5 report the lead block damaged, which charges hop 4 and no other. -/
theorem test_down_charge :
    positions.filter (charged trail5001 5) = [4] := by decide +kernel

/-- Section 9.7, 9033: a full queue of 12 events and 4 notices drops its newest event for a notice. -/
theorem test_notice_displaces :
    (RouterPort.putNotice { item := .notice (.remoteFailed 5#8 .noAnswer), stamp := 9033#32 }
      { RouterPort.reset with
        queue := List.replicate 12 { item := .event (.hopDegraded 5), stamp := 1#32 }
          ++ List.replicate 4 { item := .notice (.streamResumed 1), stamp := 2#32 }
        lost := 2 : RouterPort }).queue.map QueueEntry.isEvent = List.replicate 11 true ++ List.replicate 5 false := by
  decide +kernel

/-- Section 9.7, 9028: a thirteenth event is dropped and counted. -/
theorem test_event_dropped :
    (RouterPort.putEvent { item := .event (.hopDegraded 5), stamp := 9029#32 }
      { RouterPort.reset with queue := List.replicate 12 { item := .event (.hopDegraded 5), stamp := 1#32 }, lost := 1 }).lost = 2 := by
  decide +kernel

/-! ### One step of commands -/

/-- R86: the reset line held low, then high again. -/
theorem test_reset_and_release :
    stepped .deviceReset oneStream = { State.reset with resetHigh := false }
      ∧ stepped .resetRelease { State.reset with resetHigh := false } = State.reset := by
  decide +kernel

/-- R86, R104, R105: the first cycle start: counter 1, the chain in BRINGUP, the port enabled. A cycle start that a row has
begun is no second one. -/
theorem test_first_cycle_start :
    (let t := stepped (.cycleStart silence []) State.reset
     (t.cycle.counter, t.chain.state, t.cycle.portEnabled, t.cycle.window)) = (1#32, .bringUp, true, true)
      ∧ (stepped (.cycleStart silence [])
          (State.reset.setCycle { CycleEngine.reset with counter := 1#32, begun := some [.switch] })).cycle.counter = 1#32 := by
  decide +kernel

/-- R91: media-in lane 3 leaves on the gated down lane 3, lane 4 of the frame does not. -/
theorem test_down_lanes :
    (let t := stepped (.cycleStart (Tab.fill 64 0xBEEF#16) []) oneStream
     (t.cycle.downLanes.get 3, t.cycle.downLanes.get 4)) = (0xBEEF#16, 0#16) := by
  decide +kernel

/-- Table 10-6, 20000 and 20002: a request before ATTACH, and ATTACH after session 3. -/
theorem test_attach :
    statusOf (stepped (.draftView 2 (.sized 0#8)) State.reset) 2 = some .notAttached
      ∧ ((stepped (.attach 2 (.sized 1#8)) (State.reset.setPort 2 { PortContext.reset with session := 3 })).port 2).leaseCount
        = some 1024 := by
  decide +kernel

/-- Table 10-6, 20005: a request at a full slot is discarded and the overrun flag set. -/
theorem test_overrun :
    ((stepped (.readQueue 0 (.sized 4#8)) (attached0.respond 0 (reply .ok))).port 0).overrun = true := by decide +kernel

/-- R174: a read cut short leaves the slot. -/
theorem test_short_read :
    (((stepped (.responseRead 0 2) (attached0.respond 0 (reply .accepted))).port 0).slot.isSome,
      ((stepped (.responseRead 0 3) (attached0.respond 0 (reply .accepted))).port 0).dataOut) = (true, [0x01#8, 0x00#8, 0x15#8]) := by
  decide +kernel

/-- R45: a unit that is not READY refuses the open; a READY one gives handle 0 at index 0. -/
theorem test_draft_open :
    statusOf (stepped (.draftOpen 0 (.sized openArgs)) attached0) 0 = some .notReady
      ∧ ((stepped (.draftOpen 0 (.sized openArgs)) twoUnits).port 0).slot = some { status := .ok, body := .opened 0 0 } := by
  decide +kernel

/-- R46: another session's stream is no subject of a close. -/
theorem test_draft_close :
    statusOf (stepped (.draftClose 0 (.sized 0#8)) oneStream) 0 = some .ok
      ∧ statusOf (stepped (.draftClose 0 (.sized 0#8)) (oneStream.setStream 0 { stream0 with owner := some (1, 1) })) 0
        = some .notOwner := by
  decide +kernel

/-- R51, R56, R67: a committed close forms a batch at once, with position 1 affected. -/
theorem test_commit_forms_batch :
    (let t := stepped (.commit 0 (.sized 0#8))
        (oneStream.setDraft 0 { Draft.empty with state := .opened, entries := [.closing 0], session := some 1 })
     (t.switch.phase, t.switch.token, t.switch.queue, (t.stream 0).state, (t.draft 0).state, statusOf t 0))
      = (.prepare, 1#8, [1], .switchingOut, .active, some .accepted) := by
  decide +kernel

/-- R140: the map window is write-protected, its last byte below it is not. -/
theorem test_remote_write_window :
    statusOf (stepped (.remoteWrite 0 (.sized { target := 1#8, address := 0xDF#8, length := 2#8, tag := 1#8, data := [0#8, 0#8] }))
        twoUnits) 0 = some .writeProtected
      ∧ statusOf (stepped (.remoteWrite 0 (.sized { target := 1#8, address := 0xDE#8, length := 2#8, tag := 1#8, data := [0#8, 0#8] }))
        twoUnits) 0 = some .accepted := by
  decide +kernel

/-- R13, R56, R167: a lease that runs out orphans the stream, and the batch for its release forms at once. -/
theorem test_lease_expiry :
    (let t := stepped (.leaseExpiry 0) (oneStream.setPort 0 { session1 with leaseCount := some 1 })
     ((t.port 0).state, (t.port 0).endReason, (t.stream 0).state, (t.stream 0).orphan, t.switch.phase))
      = (.detached, .leaseExpired, .switchingOut, true, .prepare) := by
  decide +kernel

/-- R105: the first SEEK after device reset belongs to cycle 33. -/
theorem test_first_seek :
    (let s := State.reset
     let t := stepped .bringupSeek
        ((s.setChain { s.chain with state := .bringUp, bringUp := some { BringUp.first with cycles := some 31 } }).setCycle
          { s.cycle with counter := 32#32 })
     (t.cycle.counter, t.cycle.msg.kind, t.cycle.msg.target)) = (33#32, .seek, 1) := by
  decide +kernel

/-- R122: a chain restart with the Switch Engine busy is refused. -/
theorem test_restart_refused :
    statusOf (stepped (.chainRestart 0 (.sized ())) (twoUnits.setSwitch { SwitchEngine.reset with phase := .settle })) 0
      = some .switchBusy := by
  decide +kernel

/-- R95: the window that closes without an up pass counts a short trail. -/
theorem test_window_close :
    (let t := stepped (.receiveWindowClose { readers := [], meet := .resyncFirst })
        (twoUnits.setCycle { CycleEngine.reset with window := true })
     (t.chain.breakCount, t.chain.lastMissing, t.cycle.window)) = (1, true, false) := by
  decide +kernel

/-- R93, R94: an entry and an answer damaged on two hops stay damaged. -/
theorem test_damage_is_not_undone :
    readEntry 2 (damagedEntry (damagedEntry (Tab.ofList 0#8 6 [0x02#8, 0x0F#8, 0x05#8, 0x00#8, 0x07#8, 0x7D#8]))) = none
      ∧ validAnswer { client := some (.host 0), target := 1, kind := .seek }
        (damagedAnswer (damagedAnswer
          (Tab.ofList 0#8 13 [1#8, 2#8, 1#8, 0x11#8, 3#8, 0xDE#8, 0xAD#8, 0xBE#8, 0xEF#8, 16#8, 33#8, 0x5C#8, 0xB8#8]))) = none := by
  decide +kernel

/-- A unit at a position that drives its far side, with an event and samples that differ by pass. -/
def linkAt (p : Nat) (w : Wire) (m : List MapLine) : Link :=
  { wire := w, own := { down := Tab.fill 64 0xD00D#16, up := Tab.fill 64 0xCAFE#16 }
    endpoint :=
      { position := some p, drives := true, active := m, epoch := 41#16, shadow := Shadow.emptied 20#8, next := none
        identity := { kind := 1#8, revision := 0#8, serial := 7#32, sourceLimit := 16, sinkLimit := 16 }, registers := []
        events := [(17, 1#16)] } }

/-- Two units: position 1 sources up lane 2 and takes up lane 3, position 2 sources lane 3 of both passes and takes down lane 0. -/
def twoLinks (w1 w2 : Wire) : List Link :=
  [linkAt 1 w1 [{ handle := 0, pass := .up, first := 2, lanes := 1, role := .source },
      { handle := 1, pass := .up, first := 3, lanes := 1, role := .sink }],
    linkAt 2 w2 [{ handle := 2, pass := .down, first := 0, lanes := 1, role := .sink },
      { handle := 3, pass := .down, first := 3, lanes := 1, role := .source },
      { handle := 1, pass := .up, first := 3, lanes := 1, role := .source }]]

/-- An EVENT_TAKE to position 2, as in cycle 5002 of section 5.8. -/
def take2 : LeadBlock := { cycle := 5002#16, epoch := 41#16, countdown := 0, token := 20#8, msg := bareMessage 2 .eventTake }

/-- Section 5.8, cycle 5002, R92: the hop that loses the up pass, the first or the second, and what is left of the events of
position 2, which acted; the trail is then missing, or ends at position 1, which turns the pass around. -/
theorem test_up_pass_lost :
    (let first := runChain false (twoLinks { Wire.whole with loseUp := true } Wire.whole) (some take2) silence
     let second := runChain false (twoLinks Wire.whole { Wire.whole with loseUp := true }) (some take2) silence
     (first.2.isNone, first.1.map fun x => x.endpoint.events.length, second.2.map fun u => u.trail.length,
        second.1.map fun x => x.endpoint.events.length))
      = (true, [1, 0], some 1, [1, 0]) := by
  decide +kernel

/-- R91, R92: each unit writes its samples of the pass, and takes the lanes of its SINK lines. -/
theorem test_lanes_of_the_passes :
    (let r := runChain false (twoLinks Wire.whole Wire.whole) (some take2) (Tab.fill 64 0x1234#16)
     (r.2.map fun u => (u.lanes.get 2, u.lanes.get 3, u.lanes.get 0, u.trail.length),
       r.1.map fun x => (x.down.map fun t => t.get 0, x.up.map fun t => t.get 3)))
      = (some (0xCAFE#16, 0xCAFE#16, 0#16, 2), [(some 0#16, some 0xCAFE#16), (some 0x1234#16, some 0#16)]) := by
  decide +kernel

/-- R110, R113: with no position enrolled the break count is 0; with 15 enrolled no probe stays pending. -/
theorem test_counts_at_the_ends :
    ({ ChainManager.reset with state := .running, breakCount := 2, largestShort := 1 : ChainManager }.countShort 0).breakCount = 0
      ∧ ((positions.foldl (fun (c : ChainManager) p => c.setEntry p readyEntry)
          { ChainManager.reset with state := .running, probePending := true }).endChanged).probePending = false := by
  decide +kernel

/-- R58, R170: the draft of an ended session gives no commit notice, although a later session has its number. -/
theorem test_no_notice_to_a_later_session :
    attached0.notifyCommit { Draft.empty with ended := true } (0, 1) (.commitDone 1#16 0) = attached0 := by decide +kernel

/-! ### Witnesses: for each obligation with hypotheses, states and operands that meet them -/

/-- The head held in reset. -/
def heldHead : State := { State.reset with resetHigh := false }

/-- A full response slot at H0. -/
def fullSlot : State := attached0.respond 0 (reply .ok)

/-- An OPEN draft of H0 on `oneStream`. -/
def openDraft (es : List DraftEntry) : State :=
  oneStream.setDraft 0 { Draft.empty with state := .opened, entries := es, session := some 1 }

/-- A draft of H0 in a state, with one SET. -/
def draftIn (x : DraftState) : State :=
  twoUnits.setDraft 0 { Draft.empty with state := x, entries := [.setting .retryLimit 3], session := some 1, flags := some .none }

/-- H0's commit waiting. -/
def queuedDraft : State := (draftIn .queued).setCommits [{ port := 0, session := 1, flags := .none }]

/-- A read that H0 has queued. -/
def oneRead : RemoteRequest :=
  { kind := .read, target := some 1, address := 0, length := 4, data := [], tag := 9#8, session := 1, retries := 0 }

/-- That read outstanding. -/
def oneOutstanding (k : RemoteKind) (retries : Nat) (discarded : Bool) : Outstanding :=
  { request := { oneRead with kind := k, retries := retries }, port := 0, cycle := 1#32, expected := [1, 2], discarded := discarded }

/-- A batch that closes handle 0, opens handle 1 and carries H0's commit. -/
def oneBatch : Batch :=
  { nextPlan := [{ planned0 with handle := 1, down := some 4 }], nextSettings := Settings.default, changed := [], affected := [1],
    commits := [(0, 1)], forced := [], stale := [], lead := 4 }

/-- A switch of that batch under way, in a phase, with its counters. -/
def switching (x : Phase) (progress countdown settle : Nat) : State :=
  ((((oneStream.setStream 0 { stream0 with state := .switchingOut, change := .close .owner }).setStream 1
      { stream0 with state := .switchingIn, down := none }).setStream 2 { stream0 with state := .staged, down := none }).setDraft 0
      { Draft.empty with state := .active, entries := [.closing 0], session := some 1, flags := some .none }).setSwitch
    { SwitchEngine.reset with
      phase := x, plan := [planned0], batch := some oneBatch, token := 1#8, progress := progress, countdown := countdown
      settle := settle
      transfers := [{ position := 1, map := [], status := .ready, nextIndex := 0, resends := 0, missed := true, settled := false }] }

/-- `twoUnits` with the entry of position 2 changed. -/
def entry2 (e : ChainEntry) : State := twoUnits.setEntry 2 e

/-- An order of a trail arrival. -/
def anyOrder : TrailOrder := { readers := [.remote, .hop], meet := .batchFirst }

/-- An arrival that brings an answer to a client. -/
def arrivalOf (c : Client) (ans : Option Answer) : Arrival :=
  { trail := { entries := [some (fields true), some (fields true)], missing := false }
    record := { client := some c, target := 1, kind := .eventTake }, answer := ans, token := 0#8, losses := [] }

/-- An endpoint's event 17 with detail 012Ch. -/
def eventAnswer : Answer := { result := .ok, payload := [0x11#8, 0x01#8, 0x2C#8, 0#8, 0#8, 0#8, 0#8, 0#8] }

theorem witness_StepRunsFrontCommand : State.reset.pending = [] := by decide

theorem witness_ResetLineHoldsHead :
    heldHead.resetHigh = false ∧ Instr.attach 0 (.sized 1#8) ≠ .deviceReset ∧ Instr.attach 0 (.sized 1#8) ≠ .resetRelease := by
  decide

theorem witness_CounterChangesOnlyAtCycleStart :
    exec .deviceReset oneStream = .next (after .deviceReset oneStream)
      ∧ exec (.cycleStart silence []) (oneStream.setCycle { CycleEngine.reset with counter := 0xFFFFFFFF#32 })
        = .next (after (.cycleStart silence []) (oneStream.setCycle { CycleEngine.reset with counter := 0xFFFFFFFF#32 }))
      ∧ exec (.chainRestart 0 (.sized ())) oneStream = .next (after (.chainRestart 0 (.sized ())) oneStream)
      ∧ oneStream.resetHigh = true
      ∧ exec .switchCycle (switching .countdown 0 0 0) = .next (after .switchCycle (switching .countdown 0 0 0))
      ∧ (after .switchCycle (switching .countdown 0 0 0)).cycle.counter = 1#32
      ∧ exec (.cycleStart silence []) (after .switchCycle (switching .countdown 0 0 0))
        = .next (after (.cycleStart silence []) (after .switchCycle (switching .countdown 0 0 0))) :=
  ⟨rfl, rfl, rfl, rfl, rfl, by decide +kernel, rfl⟩

/-- R77: the items of the switch cycle of cycle 1 carry its number. -/
theorem test_switch_cycle_stamp :
    ((stepped .switchCycle (switching .countdown 0 0 0)).routerPort 0).queue.map (fun e => (e.item, e.stamp))
      = [(.notice (.commitDone 1#16 0), 1#32)] := by
  decide +kernel

theorem witness_EpochChangesOnlyBySwitchOrRestart :
    exec .switchCycle (switching .countdown 0 0 0) = .next (after .switchCycle (switching .countdown 0 0 0))
      ∧ exec (.chainRestart 0 (.sized ())) oneStream = .next (after (.chainRestart 0 (.sized ())) oneStream)
      ∧ exec .probeDue oneStream = .next (after .probeDue oneStream) ∧ Instr.switchCycle ≠ .deviceReset
      ∧ exec (.cycleStart silence []) (switching .countdown 0 0 0)
        = .next (after (.cycleStart silence []) (switching .countdown 0 0 0))
      ∧ (after (.cycleStart silence []) (switching .countdown 0 0 0)).switch.epoch = 1#16 :=
  ⟨rfl, rfl, rfl, by decide, rfl, by decide +kernel⟩

theorem witness_TransactionsDecodeBack :
    (Instr.draftOpen 3 (.sized openArgs)).wellFormed = true ∧ (encode (.draftOpen 3 (.sized openArgs))).isSome = true
      ∧ (Instr.attach 0 (.wrongSize (List.replicate 28 0#8))).wellFormed = true
      ∧ (encode (.attach 0 (.wrongSize (List.replicate 28 0#8)))).isSome = true
      ∧ (Instr.frameError 0 []).wellFormed = true ∧ (encode (.frameError 0 [])).isSome = true
      ∧ (Instr.responseRead 0 0).wellFormed = true ∧ (encode (.responseRead 0 0)).isSome = true := by
  decide +kernel

theorem witness_FramesRefusedBeforeOwner :
    fullSlot.resetHigh = true ∧ hostPort (.portStatus 0 (.sized ())) = some 0 ∧ (fullSlot.port 0).slot.isSome = true
      ∧ (State.reset.port 0).slot = none ∧ State.reset.attached 0 = false
      ∧ requestOf (.draftView 0 (.wrongSize [])) = some (0, false) ∧ takenDetached (.draftView 0 (.wrongSize [])) = false
      ∧ takenDetached (.attach 0 (.wrongSize [])) = true ∧ requestOf (.attach 0 (.wrongSize [])) = some (0, false)
      ∧ attached0.attached 0 = true ∧ (attached0.port 0).slot = none := by
  decide +kernel

theorem witness_RefusedRequestsChangeNothing :
    attached0.listens 0 ∧ requestOf (.withdraw 0 (.sized ())) = some (0, true)
      ∧ statusOf (after (.withdraw 0 (.sized ())) attached0) 0 = some .notFound
      ∧ statusOf (after (.portStatus 0 (.sized ())) attached0) 0 = some .ok
      ∧ (after (.portStatus 0 (.sized ())) attached0).attached 0 = true
      ∧ 1 ≤ ((after (.portStatus 0 (.sized ())) attached0).port 0).lease := by
  decide +kernel

theorem witness_PortContextsAreSeparate :
    hostPort (.detach 0 (.sized ())) = some 0 ∧ (1 : Port) ≠ 0
      ∧ exec (.detach 0 (.sized ())) oneStream = .next (after (.detach 0 (.sized ())) oneStream) :=
  ⟨rfl, by decide, rfl⟩

theorem witness_ResponseReadEmptiesSlot :
    (fullSlot.resetHigh = true ∧ (fullSlot.port 0).slot = some (reply .ok) ∧ ((reply .ok).bytes false).length = 3)
      ∧ State.reset.resetHigh = true ∧ (State.reset.port 0).slot = none := by
  decide +kernel

theorem witness_AttachOpensSession :
    attached0.listens 0 ∧ attached0.attached 0 = true
      ∧ (State.reset.setPort 0 { PortContext.reset with session := 255 }).listens 0
      ∧ (State.reset.setPort 0 { PortContext.reset with session := 255 }).attached 0 = false := by
  decide +kernel

theorem witness_SessionsEndOnDetachAndExpiry :
    (oneStream.resetHigh = true ∧ (oneStream.port 0).slot = none ∧ oneStream.attached 0 = true)
      ∧ ((oneStream.setPort 0 { session1 with leaseCount := some 1 }).port 0).leaseCount = some 1
      ∧ ((oneStream.setPort 0 { session1 with leaseCount := some 2 }).port 0).leaseCount = some 2
      ∧ ((oneStream.setPort 0 { session1 with lease := 0, leaseCount := none }).port 0).leaseCount = none
      ∧ oneStream.attached 1 = false ∧ oneStream.cycle.made (.lease 0) = false
      ∧ (oneStream.setCycle { CycleEngine.reset with begun := some [.lease 0] }).cycle.made (.lease 0) = true := by
  decide +kernel

/-- A session with a stream, a draft in a state and a read outstanding. -/
def busySession (d : DraftState) : State :=
  ((((oneStream.setDraft 0 { Draft.empty with state := d, entries := [.setting .retryLimit 3], session := some 1 }).setCommits
    (if d = .queued then [{ port := 0, session := 1, flags := .none }] else [])).setOutstanding
      (some (oneOutstanding .read 0 false))).setStream 1 { stream0 with state := .staged, down := none })

theorem witness_SessionEndSettlesSession :
    (let s := (busySession .opened).setDraft 0
        { Draft.empty with state := .opened, entries := [.opening 1 0 [1] 4 0#16], session := some 1 }
     (s.draft 0).state = .opened ∧ ∃ e ∈ (s.draft 0).entries, e.opens? = some (1 : Handle))
      ∧ ((busySession .opened).stream 0).state = .live ∧ ((busySession .opened).stream 0).owner = some (0, 1)
      ∧ ((busySession .opened).stream 0).orphan = false
      ∧ (∀ e ∈ ((busySession .opened).draft 0).entries, e.opens? ≠ some (0 : Handle))
      ∧ ((busySession .opened).draft 0).state = .opened ∧ ((busySession .queued).draft 0).state = .queued
      ∧ ((busySession .active).draft 0).state = .active ∧ ((busySession .empty).draft 0).state = .empty := by
  decide +kernel

theorem witness_LeaseCountsDownAtCycleStart :
    (oneStream.setPort 0 { session1 with leaseCount := some 2 }).resetHigh = true
      ∧ (oneStream.setPort 0 { session1 with leaseCount := some 2 }).attached 0 = true
      ∧ ((oneStream.setPort 0 { session1 with leaseCount := some 2 }).port 0).leaseCount = some 2 := by
  decide +kernel

theorem witness_PortStatusReportsPort : State.reset.listens 0 ∧ attached0.listens 0 := by decide +kernel

theorem witness_DraftOpenStagesStream :
    let a : OpenArgs := { openArgs with sinkCount := 2#8, slots := .cons 2#8 (.cons 1#8 (.cons 0#8 (.cons 0#8 .nil))), lanes := 16#8 }
    oneStream.serves 0 ∧ a.source.toNat ≤ 15 ∧ 1 ≤ a.sinkCount.toNat ∧ a.sinkCount.toNat ≤ 4 ∧ (∀ k ∈ sinksGiven a, k ≤ 15)
      ∧ (sinksGiven a).Nodup ∧ a.source.toNat ∉ sinksGiven a ∧ 1 ≤ a.lanes.toNat ∧ a.lanes.toNat ≤ 16
      ∧ ((oneStream.draft 0).state = .empty ∨ (oneStream.draft 0).state = .opened) ∧ (oneStream.draft 0).entries.length < 8
      ∧ (∀ q ∈ a.source.toNat :: sinksGiven a, q ≠ 0 → (oneStream.entry q).state = .ready)
      ∧ (oneStream.stream 1).state = .free ∧ (∀ e ∈ (oneStream.draft 0).entries, e.handle? ≠ some (1 : Handle))
      ∧ (∀ k : Handle, k < 1 →
          (oneStream.stream k).state ≠ .free ∨ ∃ e ∈ (oneStream.draft 0).entries, e.handle? = some k) := by
  decide +kernel

/-- `oneStream` with handle 0's record changed. -/
def record0 (r : Stream) : State := oneStream.setStream 0 r

/-- Witnesses of DraftCloseAndResizeStage: a stream that is staged, and each reason of refusal. -/
theorem witness_DraftCloseAndResizeStage :
    (oneStream.serves 0 ∧ (0#8 : Byte).toNat = (0 : Handle).val ∧ (oneStream.draft 0).state = .empty
      ∧ (oneStream.draft 0).entries.length < 8 ∧ (∀ e ∈ (oneStream.draft 0).entries, e.handle? ≠ some (0 : Handle))
      ∧ (oneStream.stream 0).owner = some (0, (oneStream.port 0).session) ∧ (oneStream.stream 0).orphan = false
      ∧ (oneStream.stream 0).mark = .none ∧ (oneStream.stream 0).state = .live)
      ∧ ((16#8 : Byte).toNat ≠ (oneStream.stream 0).lanes ∧ (4#8 : Byte).toNat = (oneStream.stream 0).lanes)
      ∧ (32 ≤ (32#8 : Byte).toNat ∧ (0#8 : Byte).toNat = 0 ∧ 17 ≤ (17#8 : Byte).toNat)
      ∧ ((openDraft [.closing 0]).serves 0 ∧ (∃ e ∈ ((openDraft [.closing 0]).draft 0).entries, e.handle? = some (0 : Handle)))
      ∧ (oneStream.stream 31).state = .free ∧ (31#8 : Byte).toNat = (31 : Handle).val
      ∧ ((record0 { stream0 with owner := some (1, 1) }).stream 0).owner ≠ some (0, 1)
      ∧ ((record0 { stream0 with orphan := true }).stream 0).orphan = true
      ∧ ((record0 { stream0 with state := .switchingOut }).stream 0).state = .switchingOut
      ∧ ((record0 { stream0 with mark := .replaced }).stream 0).mark ≠ .none := by
  decide +kernel

theorem witness_DraftSetStagesSetting :
    attached0.serves 0 ∧ settingSetOf { setting := 6#8, value := 0#8 } = none ∧ settingSetOf { setting := 1#8, value := 1#8 } = none
      ∧ settingSetOf { setting := 1#8, value := 2#8 } = some (.switchLead, 2)
      ∧ settingSetOf { setting := 2#8, value := 255#8 } = some (.prepareTimeout, 255)
      ∧ settingSetOf { setting := 3#8, value := 0#8 } = some (.retryLimit, 0)
      ∧ settingSetOf { setting := 4#8, value := 15#8 } = none ∧ settingSetOf { setting := 5#8, value := 2#8 } = none
      ∧ ((attached0.draft 0).state = .empty ∨ (attached0.draft 0).state = .opened) ∧ (attached0.draft 0).entries.length < 8 := by
  decide +kernel

theorem witness_ClosedDraftsRefuseStaging :
    queuedDraft.serves 0 ∧ (openOf openArgs).isSome = true ∧ (31#8 : Byte).toNat < 32
      ∧ (settingSetOf { setting := 5#8, value := 1#8 }).isSome = true ∧ (queuedDraft.draft 0).state = .queued
      ∧ (openDraft (List.replicate 8 (.setting .retryLimit 3))).serves 0
      ∧ ((openDraft (List.replicate 8 (.setting .retryLimit 3))).draft 0).state = .opened
      ∧ 8 ≤ ((openDraft (List.replicate 8 (.setting .retryLimit 3))).draft 0).entries.length := by
  decide +kernel

theorem witness_DraftDropRemovesEntry :
    (openDraft [.closing 0]).serves 0 ∧ 8 ≤ (8#8 : Byte).toNat ∧ (7#8 : Byte).toNat ≤ 7
      ∧ ((openDraft [.closing 0]).draft 0).state = .opened ∧ ((openDraft [.closing 0]).draft 0).entries.length ≤ (7#8 : Byte).toNat
      ∧ ((openDraft [.closing 0]).draft 0).entries[(0#8 : Byte).toNat]? = some (.closing 0)
      ∧ queuedDraft.serves 0 ∧ (queuedDraft.draft 0).state = .queued := by
  decide +kernel

theorem witness_DraftClearEmptiesDraft :
    (openDraft [.closing 0]).serves 0 ∧ ((openDraft [.closing 0]).draft 0).state = .opened
      ∧ queuedDraft.serves 0 ∧ (queuedDraft.draft 0).state = .queued ∧ attached0.serves 0 ∧ (attached0.draft 0).state = .empty := by
  decide +kernel

theorem witness_DraftViewShowsDraft :
    8 ≤ (8#8 : Byte).toNat ∧ queuedDraft.serves 0 ∧ (queuedDraft.draft 0).state = .queued
      ∧ queuedDraft.commits = [] ++ { port := 0, session := 1, flags := .none } :: []
      ∧ (busySession .active).serves 0 ∧ (7#8 : Byte).toNat ≤ 7 ∧ ((busySession .active).draft 0).ended = false
      ∧ (attached0.setDraft 0 { Draft.empty with state := .active, entries := [.closing 0], ended := true }).serves 0
      ∧ ((attached0.setDraft 0 { Draft.empty with state := .active, entries := [.closing 0], ended := true }).draft 0).ended = true := by
  decide +kernel

theorem witness_CommitJoinsQueue :
    (openDraft [.closing 0]).serves 0 ∧ ((openDraft [.closing 0]).draft 0).state = .opened ∧ (1#8 : Byte).toNat = 1
      ∧ ((openDraft [.closing 0]).setSwitch { SwitchEngine.reset with phase := .settle }).serves 0
      ∧ ((openDraft [.closing 0]).setSwitch { SwitchEngine.reset with phase := .settle }).switch.phase ≠ .idle
      ∧ 2 ≤ (2#8 : Byte).toNat ∧ (attached0.draft 0).state = .empty ∧ attached0.serves 0
      ∧ queuedDraft.serves 0 ∧ (queuedDraft.draft 0).state = .queued := by
  decide +kernel

theorem witness_WithdrawTakesCommitBack :
    queuedDraft.serves 0 ∧ (queuedDraft.draft 0).state = .queued ∧ (draftIn .active).serves 0
      ∧ ((draftIn .active).draft 0).state = .active := by
  decide +kernel

theorem witness_QueriesReportRegisters :
    oneStream.serves 0 ∧ (31#8 : Byte).toNat = (31 : Handle).val ∧ 32 ≤ (32#8 : Byte).toNat ∧ (15#8 : Byte).toNat ≤ 15
      ∧ 16 ≤ (16#8 : Byte).toNat := by
  decide +kernel

theorem witness_ListStreamsWalksTable : oneStream.serves 0 ∧ (31#8 : Byte).toNat = (31 : Handle).val := by decide +kernel

theorem witness_RemoteRequestsAreQueued :
    twoUnits.serves 0 ∧ (twoUnits.entry 1).state = .ready ∧ (twoUnits.entry 15).state ≠ .ready ∧ twoUnits.remoteHeld 0 < 4
      ∧ (twoUnits.setRemoteQueue 0 (List.replicate 4 oneRead)).serves 0
      ∧ 4 ≤ (twoUnits.setRemoteQueue 0 (List.replicate 4 oneRead)).remoteHeld 0
      ∧ attached0.serves 0 ∧ (∀ q ∈ positions, (attached0.entry q).state ≠ .ready) ∧ (0x0F#8 : Byte).toNat ≤ 15
      ∧ (0xFC#8 : Byte).toNat + (4#8 : Byte).toNat ≤ 256 ∧ 0xE0 < (0xDF#8 : Byte).toNat + (2#8 : Byte).toNat
      ∧ (0xDE#8 : Byte).toNat + (2#8 : Byte).toNat ≤ 0xE0 := by
  decide +kernel

theorem witness_SubscribeReplacesSet :
    attached0.serves 0 ∧ 16 ≤ (16#8 : Byte).toNat ∧ (15#8 : Byte).toNat ≤ 15 := by decide +kernel

theorem witness_ReadQueueTakesOldest :
    attached0.serves 0 ∧ 5 ≤ (5#8 : Byte).toNat ∧ 1 ≤ (1#8 : Byte).toNat ∧ (4#8 : Byte).toNat ≤ 4 := by decide +kernel

/-- An event entry and a notice entry. -/
def anEvent : QueueEntry := { item := .event (.hopDegraded 1), stamp := 1#32 }
/-- A notice entry. -/
def aNotice : QueueEntry := { item := .notice (.streamResumed 1), stamp := 2#32 }

/-- A port queue. -/
def queueOf (l : List QueueEntry) : RouterPort := { RouterPort.reset with queue := l, lost := 255, attention := true }

theorem witness_EventPlacement :
    anEvent.isEvent = true ∧ (queueOf (List.replicate 11 anEvent ++ List.replicate 4 aNotice)).queue.length < 16
      ∧ (queueOf (List.replicate 11 anEvent ++ List.replicate 4 aNotice)).queue.countP QueueEntry.isEvent < 12
      ∧ 12 ≤ (queueOf (List.replicate 12 anEvent)).queue.countP QueueEntry.isEvent
      ∧ 16 ≤ (queueOf (List.replicate 16 aNotice)).queue.length := by
  decide +kernel

theorem witness_NoticePlacement :
    aNotice.isEvent = false ∧ (queueOf (List.replicate 15 aNotice)).queue.length < 16
      ∧ (queueOf (List.replicate 3 anEvent ++ List.replicate 13 aNotice)).queue.length = 16
      ∧ (queueOf (List.replicate 3 anEvent ++ List.replicate 13 aNotice)).queue
        = List.replicate 2 anEvent ++ anEvent :: List.replicate 13 aNotice
      ∧ (∀ x ∈ List.replicate 13 aNotice, x.isEvent = false)
      ∧ (queueOf (List.replicate 16 aNotice)).queue.length = 16
      ∧ (∀ x ∈ (queueOf (List.replicate 16 aNotice)).queue, x.isEvent = false) := by
  decide +kernel

theorem witness_CycleStartBeginsCycle :
    State.reset.resetHigh = true ∧ State.reset.cycle.window = false ∧ State.reset.cycle.begun = none
      ∧ State.reset.cycle.made .lead = false
      ∧ (oneStream.setCycle { CycleEngine.reset with begun := some [.switch] }).cycle.made .lead = false
      ∧ (oneStream.setCycle { CycleEngine.reset with window := true }).cycle.window = true
      ∧ (oneStream.setCycle { CycleEngine.reset with begun := some [.switch] }).cycle.begun ≠ none := by
  decide +kernel

theorem witness_TrailArrivalIsTaken :
    (oneStream.setCycle { CycleEngine.reset with window := true }).resetHigh = true
      ∧ (oneStream.setCycle { CycleEngine.reset with window := true }).cycle.window = true ∧ oneStream.cycle.window = false := by
  decide +kernel

theorem witness_SlotGoesToOneClient :
    (twoUnits.setRemoteQueue 0 [oneRead]).chain.state = .running
      ∧ (twoUnits.setRemoteQueue 0 [oneRead]).grantSlot.arbiter.grant = some (.host 0)
      ∧ (switching .prepare 0 0 0).chain.state = .running
      ∧ ((switching .prepare 0 0 0).setSwitch { (switching .prepare 0 0 0).switch with queue := [1] }).grantSlot.arbiter.grant
        = some .switch
      ∧ twoUnits.grantSlot.arbiter.grant = none := by
  decide +kernel

theorem witness_RemoteAnswersAreTaken :
    (twoUnits.setOutstanding (some (oneOutstanding .read 2 false))).remote.outstanding = some (oneOutstanding .read 2 false)
      ∧ (oneOutstanding .read 0 true).discarded = true
      ∧ (oneOutstanding .read 0 false).request.kind = .read ∧ (arrivalOf (.host 0) (some eventAnswer)).answerFor (.host 0) = some eventAnswer
      ∧ (oneOutstanding .write 0 false).request.kind = .write ∧ (arrivalOf (.host 0) none).answerFor (.host 0) = none
      ∧ (oneOutstanding .writeAll 2 false).request.kind = .writeAll := by
  decide +kernel

theorem witness_FetchAnswersAreTaken :
    (twoUnits.setFetch { wanted := [1], lastFetched := 0, outstanding := some 1 }).fetch.outstanding = some 1
      ∧ (arrivalOf .fetch none).answerFor .fetch = none ∧ (arrivalOf .fetch (some eventAnswer)).answerFor .fetch = some eventAnswer
      ∧ eventAnswer.result = .ok ∧ eventAnswer.payload = 0x11#8 :: 0x01#8 :: 0x2C#8 :: [0#8, 0#8, 0#8, 0#8, 0#8]
      ∧ (arrivalOf .fetch (some { eventAnswer with result := .noEvent })).answerFor .fetch
        = some { eventAnswer with result := .noEvent } := by
  decide +kernel

theorem witness_FirstFitTakesLowestRun :
    firstFit plan21 .down 1 = some 10 ∧ firstFit plan21 .down 12 = some 10 ∧ firstFit plan21 .down 16 = none
      ∧ firstFit [] .up 16 = some 0 := by
  decide +kernel

/-- H0's commit of a draft on `oneStream`, which has handle 1 STAGED besides. -/
def waiting (es : List DraftEntry) : State :=
  ((openDraft es).setStream 1 { stream0 with state := .staged, down := none }).setCommits [{ port := 0, session := 1, flags := .none }]

theorem witness_BatchHandsOverSwitch :
    (let s := waiting [.closing 0]
     s.resetHigh = true ∧ s.batchDue = true ∧ needsSwitch s.switch.plan s.validate.work.plan = true
      ∧ (s.stream 0).mark = .none ∧ s.opsOn s.validate.accepted 0 = [.closing 0] ∧ (s.stream 0).state ≠ .switchingOut
      ∧ s.opsOn s.validate.accepted 1 = [])
      ∧ (let s := waiting [.resizing 0 5]
         s.batchDue = true ∧ needsSwitch s.switch.plan s.validate.work.plan = true
          ∧ s.opsOn s.validate.accepted 0 = [.resizing 0 5])
      ∧ (let s := waiting [.opening 1 0 [1] 4 0#16]
         s.batchDue = true ∧ needsSwitch s.switch.plan s.validate.work.plan = true
          ∧ s.opsOn s.validate.accepted 1 = [.opening 1 0 [1] 4 0#16])
      ∧ (let s := (waiting [.closing 0]).setStream 0 { stream0 with mark := .released }
         s.batchDue = true ∧ needsSwitch s.switch.plan s.validate.work.plan = true ∧ (s.stream 0).mark ≠ .none
          ∧ s.opsOn s.validate.accepted 0 = [.closing 0])
      ∧ (let s := waiting [.resizing 2 5]
         s.batchDue = true ∧ s.validate.accepted = []
          ∧ s.validate.rejected = [({ port := 0, session := 1, flags := .none }, 0, .streamGone)] ∧ s.attached 0 = true
          ∧ (s.port 0).session = 1 ∧ (s.routerPort 0).queue = []) := by
  decide +kernel

theorem witness_SettingsBatchCompletes :
    queuedDraft.resetHigh = true ∧ queuedDraft.switch.phase = .idle ∧ queuedDraft.commits = [{ port := 0, session := 1, flags := .none }]
      ∧ (queuedDraft.draft 0).entries = [.setting .retryLimit 3] ∧ (∀ h, (queuedDraft.stream h).mark = .none)
      ∧ ∀ q, (queuedDraft.entry q).state ≠ .resyncing := by
  refine ⟨by decide +kernel, by decide +kernel, by decide +kernel, by decide +kernel, by decide +kernel, fun q => ?_⟩
  by_cases hq : q ≤ 15
  · interval_cases q <;> decide +kernel
  · simp [State.entry, ChainManager.entry, show ¬(1 ≤ q ∧ q ≤ 15) by omega, ChainEntry.reset]

/-- That switch with a RESIZE pending on handle 3, and handle 4 in its place. -/
def resizing (x : Phase) (progress : Nat) : State :=
  ((switching x progress 0 0).setStream 3 { stream0 with change := .resize 5 }).setStream 4 { stream0 with state := .suspended }

theorem witness_SwitchCycleMakesPlanActive :
    (let u := (resizing .countdown 0).openCycle
     ((resizing .countdown 0).resetHigh = true ∧ u.switch.phase = .countdown ∧ u.switch.countdown = 0
        ∧ u.switch.batch = some oneBatch ∧ u.cycle.made .switch = false)
      ∧ [0, 1, 2, 3, 4].map (fun h => ((u.stream h).state, (u.stream h).change))
        = [(.switchingOut, .close .owner), (.switchingIn, .none), (.staged, .none), (.live, .resize 5), (.suspended, .none)])
      ∧ oneStream.openCycle.switch.phase ≠ .countdown := by
  decide +kernel

theorem witness_PrepareTimeoutAbandons :
    (switching .prepare 96 0 0).resetHigh = true ∧ (switching .prepare 96 0 0).switch.batch = some oneBatch
      ∧ (oneBatch.commits.map Prod.fst).Nodup ∧ (switching .prepare 96 0 0).switch.phase = .prepare
      ∧ (switching .prepare 96 0 0).switch.settings.prepareTimeout ≤ (switching .prepare 96 0 0).switch.progress
      ∧ (switching .prepare 95 0 0).switch.progress < (switching .prepare 95 0 0).switch.settings.prepareTimeout
      ∧ (switching .countdown 96 4 0).switch.phase ≠ .prepare ∧ ((switching .prepare 96 0 0).draft 0).ended = false
      ∧ (((switching .prepare 96 0 0).setDraft 0 { Draft.empty with state := .active, ended := true }).draft 0).ended = true
      ∧ ((switching .prepare 96 0 0).setDraft 0
          { Draft.empty with state := .active, ended := true, entries := [.opening 1 0 [1] 4 0#16] }).discards oneBatch 1 = true
      ∧ (allHandles.all fun h => !(resizing .prepare 96).discards oneBatch h) = true
      ∧ ((resizing .prepare 96).stream 0).state = .switchingOut ∧ ((resizing .prepare 96).stream 1).state = .switchingIn
      ∧ ((resizing .prepare 96).stream 2).state = .staged ∧ ((resizing .prepare 96).stream 3).change = .resize 5
      ∧ ((resizing .prepare 96).stream 4).change = .none ∧ ((resizing .prepare 96).stream 5).state = .free
      ∧ oneBatch.stale = [] := by
  decide +kernel

/-- A switch in a phase with one transfer, to position 1. -/
def transferring (x : Phase) (t : Transfer) : State :=
  (switching x 0 0 8).setSwitch { (switching x 0 0 8).switch with transfers := [t] }

/-- A transfer to position 1 in a status. -/
def transfer1 (x : TransferStatus) (resends : Nat) : Transfer :=
  { position := 1, map := [], status := x, nextIndex := 0, resends := resends, missed := false, settled := false }

/-- The trail of `trail5001` with an answer to the switch client, under token 1. -/
def sealArrival (ans : Option Answer) : Arrival :=
  { trail := trail5001, record := { client := some .switch, target := 1, kind := .mapSeal }, answer := ans, token := 1#8, losses := [] }

theorem witness_SettleEndReturnsToIdle :
    ((switching .settle 0 0 0).resetHigh = true ∧ (switching .settle 0 0 0).switch.phase = .settle
      ∧ (switching .settle 0 0 0).switch.settle = 0 ∧ ((switching .settle 0 0 0).entry 1).state = .ready
      ∧ (switching .settle 0 0 0).switch.transfers.map (fun x => (x.position, x.settled, x.missed)) = [(1, false, true)]
      ∧ (switching .settle 0 0 0).chain.beyondIsolated 1 = false
      ∧ ((switching .settle 0 0 0).setEntry 1 { readyEntry with hopState := .isolated, hopScore := 200 }).chain.beyondIsolated 1
        = true)
      ∧ ((transferring .settle { transfer1 .ready 0 with settled := true }).switch.transfers.map
          (fun x => (x.settled, x.missed)) = [(true, false)])
      ∧ ((transferring .prepare (transfer1 .sent 0)).switch.phase = .prepare
          ∧ (transferring .prepare (transfer1 .sent 0)).switch.token = (sealArrival none).token
          ∧ (transferring .prepare (transfer1 .sent 0)).switch.batch = some oneBatch)
      ∧ (sealArrival (some { result := .ok, payload := [1#8, 0#8, 0#8, 0#8, 0#8, 0#8, 0#8, 0#8] })).sealsOk 1#8 = true
      ∧ (transfer1 .sent 2).failedBy (sealArrival none) 1#8 = true ∧ (transfer1 .ready 1).failedBy (sealArrival none) 1#8 = true
      ∧ (transferring .countdown (transfer1 .ready 0)).switch.phase = .countdown := by
  decide +kernel

theorem witness_ChainRestartGivesUpPlan :
    oneStream.serves 0 ∧ (switching .settle 0 0 3).serves 0 ∧ (switching .settle 0 0 3).switch.phase ≠ .idle
      ∧ queuedDraft.serves 0 ∧ queuedDraft.commits ≠ [] ∧ oneStream.switch.phase = .idle ∧ oneStream.commits = []
      ∧ (∀ h, (oneStream.stream h).state ≠ .free →
          (oneStream.stream h).owner = some (0, (oneStream.port 0).session) ∧ (oneStream.stream h).orphan = false)
      ∧ ((oneStream.setStream 0 { stream0 with orphan := true }).stream 0).state ≠ .free
      ∧ ((oneStream.setStream 0 { stream0 with orphan := true }).stream 0).orphan = true := by
  decide +kernel

/-- The payload of a SEEK answer: kind 1, revision 2, serial 7, limits 16 and 33. -/
def anIdentity : List Byte := [1#8, 2#8, 0#8, 0#8, 0#8, 7#8, 16#8, 33#8]

/-- R114: an answer of another unit at a LOST position replaces it; R106: the third unanswered SEEK ends bring-up. -/
theorem test_enrollment :
    (let s := twoUnits.setEntry 3 { readyEntry with state := .lost, identity := none }
     let t := s.answerProbe 3 (some { result := .ok, payload := anIdentity })
     ((t.entry 3).state, (t.entry 3).rejoined, t.chain.endM)) = (.joining, false, 3)
      ∧ (let s := State.reset.setChain { ChainManager.reset with
            state := .bringUp, bringUp := some { position := 1, step := .seek, cycles := some 48, tries := 3 } }
         (s.answerSeek 1 none).chain.state) = .running := by
  decide +kernel

theorem witness_ProbeFallsDue :
    (let u := (twoUnits.setChain { twoUnits.chain with probeCount := 63 }).openCycle
     u.chain.state = .running ∧ u.switch.settings.probeInterval ≤ u.chain.probeCount + 1 ∧ u.cycle.made .probe = false)
      ∧ (let u := (twoUnits.setChain { twoUnits.chain with probeCount := 62 }).openCycle
         u.chain.state = .running ∧ u.chain.probeCount + 1 < u.switch.settings.probeInterval)
      ∧ State.reset.openCycle.chain.state ≠ .running ∧ State.reset.resetHigh = true
      ∧ (twoUnits.setCycle { CycleEngine.reset with begun := some [.probe] }).openCycle.cycle.made .probe = true
      ∧ (twoUnits.chain.endM = 2 ∧ identityOf anIdentity = some { kind := 1#8, revision := 2#8, serial := 7#32, sourceLimit := 16
                                                                  sinkLimit := 32 })
      ∧ (twoUnits.entry 3).state = .absent
      ∧ ((twoUnits.setEntry 3 { readyEntry with state := .lost }).entry 3).state = .lost
      ∧ readyEntry.identity.map (fun j => (j.kind, j.serial)) = some (1#8, 7#32) := by
  decide +kernel

/-- The head in BRINGUP with a bring-up record. -/
def bringing (b : BringUp) : State := State.reset.setChain { ChainManager.reset with state := .bringUp, bringUp := some b }

theorem witness_BringupSeekGoesOut :
    (let b : BringUp := { position := 1, step := .wait, cycles := some 31, tries := 0 }
     let u := (bringing b).openCycle
     (bringing b).resetHigh = true ∧ u.chain.state = .bringUp ∧ u.chain.bringUp = some b ∧ u.cycle.made .slot = false
      ∧ b.cycles = some 31 ∧ b.step = .wait ∧ 31 + 1 = 32)
      ∧ (let b : BringUp := { position := 1, step := .seek, cycles := some 47, tries := 2 }
         (bringing b).openCycle.chain.bringUp = some b ∧ (bringing b).openCycle.cycle.made .lead = false ∧ b.step = .seek
          ∧ b.tries < 3 ∧ 47 + 1 = 32 + 8 * b.tries ∧ 1 ≤ b.position ∧ b.position ≤ 15
          ∧ (bringing b).chain.state = .bringUp ∧ (bringing b).chain.bringUp = some b) := by
  decide +kernel

theorem witness_IsolationRecoveryClearsHop :
    let s := entry2 { readyEntry with hopState := .isolated, hopScore := 255, cleanRun := 256 }
    s.resetHigh = true ∧ (s.entry 2).hopState = .isolated ∧ 256 ≤ (s.entry 2).cleanRun := by
  decide +kernel

theorem witness_BreakLosesPositions :
    let s := oneStream.setChain { twoUnits.chain with breakCount := 3, largestShort := 1 }
    s.resetHigh = true ∧ 3 ≤ s.chain.breakCount ∧ s.chain.largestShort < 2 ∧ (s.entry 2).enrolled = true
      ∧ 1 ≤ s.chain.largestShort := by
  decide +kernel

theorem witness_QuietCountCompletes :
    (let s := entry2 { readyEntry with state := .joining, quiet := 16 }
     s.resetHigh = true ∧ (s.entry 2).state = .joining ∧ (s.entry 2).quiet = 16 ∧ (s.entry 2).rejoined = false
      ∧ (s.entry 2).stale = false ∧ (s.entry 2).outOfStep = false)
      ∧ (let s := entry2 { readyEntry with state := .joining, quiet := 16, rejoined := true }
         s.resetHigh = true ∧ (s.entry 2).state = .joining ∧ (s.entry 2).quiet = 16 ∧ (s.entry 2).rejoined = true
          ∧ s.switch.phase = .idle ∧ (s.setSwitch { SwitchEngine.reset with phase := .settle }).switch.phase ≠ .idle) := by
  decide +kernel

theorem witness_MarkedEntriesResync :
    let s := entry2 { readyEntry with stale := true }
    s.resetHigh = true ∧ s.switch.phase = .idle ∧ (s.entry 2).state = .ready ∧ (s.entry 2).stale = true
      ∧ s.chain.beyondIsolated 2 = false ∧ (s.entry 3).state = .absent
      ∧ (s.entry 1).state = .ready ∧ (s.entry 1).stale = false ∧ (s.entry 1).outOfStep = false
      ∧ (entry2 { readyEntry with stale := true, hopState := .isolated, hopScore := 200 }).chain.beyondIsolated 2 = true
      ∧ ((entry2 { readyEntry with state := .joining, quiet := 16, rejoined := true }).entry 2).quiet = 16
      ∧ ((entry2 { readyEntry with state := .joining, quiet := 15 }).entry 2).quiet ≠ 16
      ∧ (s.setSwitch { SwitchEngine.reset with phase := .settle }).switch.phase ≠ .idle := by
  decide +kernel

/-- Witnesses of HopGrading: hops at the last score before each change of grade. -/
theorem witness_HopGrading :
    ({ readyEntry with hopScore := 88 } : ChainEntry).hopLawful ∧ charged trail5001 5 4 = true
      ∧ ({ readyEntry with hopState := .degraded, hopScore := 184 } : ChainEntry).hopLawful
      ∧ ({ readyEntry with hopState := .degraded, hopScore := 64 } : ChainEntry).hopLawful ∧ cleanCycle trail5001 5 1 = true
      ∧ ({ readyEntry with hopState := .isolated, hopScore := 255, cleanRun := 255 } : ChainEntry).hopLawful
      ∧ ({ readyEntry with hopState := .isolated, hopScore := 192, cleanRun := 254 } : ChainEntry).hopLawful
      ∧ charged trail5001 5 6 = false ∧ cleanCycle trail5001 5 6 = false := by
  refine ⟨?_, by decide +kernel, ?_, ?_, by decide +kernel, ?_, ?_, by decide +kernel, by decide +kernel⟩ <;>
    simp [ChainEntry.hopLawful, readyEntry, ChainEntry.reset, Config.hopCeiling]

/-- A head with much in it, on which each law of Safety.lean holds, and a command waiting. -/
def lively : State :=
  { (((((switching .prepare 3 0 0).setRouter 0
        { queueOf [anEvent, aNotice] with lost := 255 }).setEntry 2
          { readyEntry with state := .resyncing, hopState := .degraded, hopScore := 100 }).setRemoteQueue 0
            [oneRead, oneRead, oneRead, oneRead]).setStream 3
              { stream0 with state := .suspended, causes := { Causes.none with resync := true } }) with
    pending := [.detach 0 (.sized ())] }

/-- That head with a resync transfer. -/
def resyncingHead : State := lively.setChain { lively.chain with resync := some { position := 2, nextIndex := 0 } }

theorem witness_lively_steps : step lively = .next (after (.detach 0 (.sized ())) { lively with pending := [] }) := rfl

theorem witness_resyncing_steps :
    step resyncingHead = .next (after (.detach 0 (.sized ())) { resyncingHead with pending := [] }) := rfl

theorem witness_PortQueuesKept : lively.routerLaw ∧ lively.attentionLaw := by
  unfold State.routerLaw State.attentionLaw RouterPort.bounded
  decide +kernel

theorem witness_StreamCausesKept : lively.streamLaw := by
  unfold State.streamLaw Stream.lawful
  decide +kernel

theorem witness_CommitQueueKept : lively.commitLaw := by
  refine ⟨by decide +kernel, by decide +kernel, fun _ b hb => ?_⟩
  have hb' : some oneBatch = some b := hb
  cases hb'
  decide +kernel

theorem witness_PlanLanesKeptApart : lively.planLaw := by
  refine ⟨⟨?_, List.pairwise_singleton _ _⟩, fun b hb => ?_⟩
  · intro e he pass f hf
    have he' : e ∈ [planned0] := he
    obtain rfl : e = planned0 := by simpa using he'
    cases pass <;> simp_all [PlanEntry.first, planned0, Config.lanes]
    omega
  · have hb' : some oneBatch = some b := hb
    cases hb'
    refine ⟨?_, List.pairwise_singleton _ _⟩
    intro e he pass f hf
    obtain rfl : e = { planned0 with handle := 1, down := some 4 } := by simpa [oneBatch] using he
    cases pass <;> simp_all [PlanEntry.first, planned0, Config.lanes]
    omega

theorem witness_ChainTableKeptWhole : resyncingHead.chainLaw := by
  refine ⟨fun p h1 h2 => ?_, by decide +kernel, by decide +kernel, fun r hr => ?_⟩
  · have : resyncingHead.chain.endM = 2 := by decide +kernel
    rw [this] at h2
    interval_cases p <;> decide +kernel
  · have hr' : some (ResyncTransfer.mk 2 0) = some r := hr
    cases hr'
    decide +kernel

theorem witness_HopScoresKept : lively.hopLaw := by
  intro p
  by_cases hp : p ≤ 15
  · have h : lively.entry p ∈ [ChainEntry.reset, readyEntry, lively.entry 2] := by interval_cases p <;> decide +kernel
    have h2 : lively.entry 2 = { readyEntry with state := .resyncing, hopState := .degraded, hopScore := 100 } := by
      decide +kernel
    rw [h2] at h
    simp only [List.mem_cons, List.not_mem_nil, or_false] at h
    rcases h with h | h | h <;> rw [h] <;> simp [ChainEntry.hopLawful, readyEntry, ChainEntry.reset]
  · simp [ChainEntry.hopLawful, State.entry, ChainManager.entry, show ¬(1 ≤ p ∧ p ≤ 15) by omega, ChainEntry.reset]

theorem witness_RemoteHoldingKept : lively.remoteLaw := by
  unfold State.remoteLaw
  decide +kernel

end Sys2Proof.Tests
end

/-! ### Handles in order, and folds over them -/

namespace Sys2Proof.Machine

theorem mem_allHandles (h : Handle) : h ∈ allHandles := Tab.mem_indices h

theorem allHandles_pairwise : allHandles.Pairwise (· < ·) := by decide

theorem allHandles_nodup : allHandles.Nodup := allHandles_pairwise.imp fun h => ne_of_lt h

/-- A fold whose step replaces one record by an image of it, under something the steps keep, replaces each record of a list
without repeats once. -/
theorem stream_foldl_each {α : Type} {inv : State → α} {f : State → Handle → State} {g : α → Handle → Stream → Stream}
    (hinv : ∀ s h, inv (f s h) = inv s)
    (hf : ∀ s h k, (f s h).stream k = if k = h then g (inv s) h (s.stream h) else s.stream k) :
    ∀ (l : List Handle), l.Nodup → ∀ (s : State) (k : Handle),
      (l.foldl f s).stream k = if k ∈ l then g (inv s) k (s.stream k) else s.stream k
  | [], _, s, k => by simp
  | h :: l, hl, s, k => by
    obtain ⟨hnot, hl'⟩ := List.nodup_cons.1 hl
    rw [List.foldl_cons, stream_foldl_each hinv hf l hl', hinv, hf]
    by_cases hk : k = h
    · subst hk; simp [hnot]
    · simp [hk]

/-! ### Recomputing cause sets (R15, R16) -/

/-- R15, R16: what one recomputation makes of a record. -/
def Stream.refreshed (c : ChainManager) (r : Stream) : Stream :=
  if r.state = .free ∨ c.causes r.source r.sinks = r.causes then r else r.withCauses (c.causes r.source r.sinks)

theorem stream_recomputeStream (s : State) (h k : Handle) :
    (s.recomputeStream h).stream k = if k = h then (s.stream h).refreshed s.chain else s.stream k := by
  unfold State.recomputeStream Stream.refreshed
  dsimp only
  split
  · split
    · next e => rw [e]
    · rfl
  · have f := notifyOwner?_frame (s.setStream h ((s.stream h).withCauses (s.chain.causes (s.stream h).source (s.stream h).sinks)))
      (s.stream h) ((s.stream h).causeNotice h (s.chain.causes (s.stream h).source (s.stream h).sinks))
    rw [State.stream, f.streams]
    exact State.stream_setStream s h k _

/-- R15: every record is recomputed once, on the chain table as it stands. -/
theorem stream_recompute (s : State) (h : Handle) : s.recompute.stream h = (s.stream h).refreshed s.chain := by
  have e := stream_foldl_each (inv := State.chain) (g := fun c _ r => r.refreshed c)
    (fun s h => (recomputeStream_frame s h).chain) stream_recomputeStream allHandles allHandles_nodup s h
  rw [State.recompute, e, if_pos (mem_allHandles h)]

/-- What recomputations can do to a record: of its fields only state, causes and mark change; the state only between LIVE
and SUSPENDED, as R16 ties it to the causes; the mark only from none to RELEASED, for an orphan (R13). -/
structure Stream.Recaused (r r' : Stream) : Prop where
  fields : r' = { r with state := r'.state, causes := r'.causes, mark := r'.mark }
  free : r.state = .free → r' = r
  state : r'.state = r.state ∨ ((r.state = .live ∨ r.state = .suspended) ∧ (r'.state = .live ∨ r'.state = .suspended))
  mark : r'.mark = r.mark
    ∨ (r.orphan = true ∧ r.mark = .none ∧ (r.state = .live ∨ r.state = .suspended) ∧ r'.mark = .released)
  lawful : r.lawful → r'.lawful

theorem Stream.Recaused.refl (r : Stream) : r.Recaused r := ⟨rfl, fun _ => rfl, .inl rfl, .inl rfl, id⟩

theorem Stream.Recaused.trans {r r' r'' : Stream} (a : r.Recaused r') (b : r'.Recaused r'') : r.Recaused r'' := by
  have orphan : r'.orphan = r.orphan := by rw [a.fields]
  refine ⟨?_, fun h => ?_, ?_, ?_, fun h => b.lawful (a.lawful h)⟩
  · rw [b.fields, a.fields]
  · have e := a.free h
    rw [b.free (e ▸ h), e]
  · rcases a.state with ha | ⟨ha, ha'⟩ <;> rcases b.state with hb | ⟨hb, hb'⟩
    · exact .inl (hb.trans ha)
    · exact .inr ⟨ha ▸ hb, hb'⟩
    · exact .inr ⟨ha, hb ▸ ha'⟩
    · exact .inr ⟨ha, hb'⟩
  · rcases a.mark with ha | ⟨ho, hn, hs, ha⟩ <;> rcases b.mark with hb | ⟨ho', hn', hs', hb⟩
    · exact .inl (hb.trans ha)
    · refine .inr ⟨orphan ▸ ho', ha ▸ hn', ?_, hb⟩
      rcases a.state with e | e
      · exact e ▸ hs'
      · exact e.1
    · exact .inr ⟨ho, hn, hs, hb.trans ha⟩
    · exact .inr ⟨ho, hn, hs, hb⟩

/-- R13: taking RELEASED leaves all but the mark. -/
theorem Stream.orphanMarked_fields (r : Stream) : r.orphanMarked = { r with mark := r.orphanMarked.mark } := by
  unfold Stream.orphanMarked; split <;> rfl

@[simp] theorem Stream.orphanMarked_state (r : Stream) : r.orphanMarked.state = r.state := by rw [r.orphanMarked_fields]

@[simp] theorem Stream.orphanMarked_causes (r : Stream) : r.orphanMarked.causes = r.causes := by rw [r.orphanMarked_fields]

theorem Stream.orphanMarked_mark (r : Stream) :
    r.orphanMarked.mark = if r.orphan = true ∧ (r.state = .live ∨ r.state = .suspended) ∧ r.mark = .none then .released
      else r.mark := by
  unfold Stream.orphanMarked; split <;> rfl

/-- A record is lawful or not by its state and causes. -/
theorem Stream.lawful_congr {r r' : Stream} (hs : r'.state = r.state) (hc : r'.causes = r.causes) :
    r'.lawful ↔ r.lawful := by
  unfold Stream.lawful; rw [hs, hc]

/-- A record that is neither LIVE nor SUSPENDED is lawful. -/
theorem Stream.lawful_of_other {r : Stream} (h1 : r.state ≠ .live) (h2 : r.state ≠ .suspended) : r.lawful :=
  ⟨fun h => absurd h h1, fun h => absurd h h2⟩

/-- R16: a record whose state is chosen by its causes is lawful. -/
theorem Stream.lawful_of_chosen {r : Stream} (h : r.state = if r.causes.isEmpty then .live else .suspended) : r.lawful := by
  unfold Stream.lawful
  rw [h]
  cases r.causes.isEmpty <;> simp

/-- R16: whatever the new causes, the record that takes them is lawful. -/
theorem Stream.withCauses_lawful (new : Causes) (r : Stream) : (r.withCauses new).lawful := by
  unfold Stream.withCauses
  split
  · next h => exact ⟨fun hl => by simp at hl, fun _ => by simpa using h.2⟩
  · split
    · next h => exact ⟨fun _ => by simpa using h.2, fun hl => by simp at hl⟩
    · next h1 h2 =>
      refine ⟨fun hl => ?_, fun hl => ?_⟩
      · simpa using fun hn => h1 ⟨hl, hn⟩
      · simpa using fun hn => h2 ⟨hl, hn⟩

/-- R16: a record that moves between LIVE and SUSPENDED with a new cause set. -/
theorem Stream.recaused_moved {r : Stream} (new : Causes) (st : StreamState) (hr : r.state = .live ∨ r.state = .suspended)
    (hst : st = .live ∨ st = .suspended) (hl : ({ r with causes := new, state := st } : Stream).lawful) :
    r.Recaused ({ r with causes := new, state := st } : Stream).orphanMarked := by
  refine ⟨?_, fun hf => ?_, .inr ⟨hr, by simpa using hst⟩, ?_, fun _ => (Stream.lawful_congr (by simp) (by simp)).2 hl⟩
  · rw [Stream.orphanMarked_fields]
  · rcases hr with h | h <;> rw [h] at hf <;> cases hf
  · rw [Stream.orphanMarked_mark]
    split
    · next h => exact .inr ⟨h.1, h.2.2, hr, rfl⟩
    · exact .inl rfl

/-- One change of the cause set of a record that is not FREE. -/
theorem Stream.recaused_withCauses {r : Stream} (new : Causes) (hr : r.state ≠ .free) : r.Recaused (r.withCauses new) := by
  have hl := r.withCauses_lawful new
  unfold Stream.withCauses at hl ⊢
  split
  · next h => exact recaused_moved new .suspended (.inl h.1) (.inr rfl) (lawful_of_chosen (by simp [h.2]))
  · next h1 =>
    rw [if_neg h1] at hl
    split
    · next h => exact recaused_moved new .live (.inr h.1) (.inl rfl) (lawful_of_chosen (by simp [h.2]))
    · next h2 =>
      rw [if_neg h2] at hl
      exact ⟨rfl, fun hf => absurd hf hr, .inl rfl, .inl rfl, fun _ => hl⟩

theorem Stream.recaused_refreshed (c : ChainManager) (r : Stream) : r.Recaused (r.refreshed c) := by
  unfold Stream.refreshed
  split
  · exact .refl r
  · next h => exact recaused_withCauses _ fun e => h (.inl e)

/-- What a recomputation leaves of every record. -/
def RecausedStreams (s t : State) : Prop := ∀ h, (s.stream h).Recaused (t.stream h)

theorem RecausedStreams.refl (s : State) : RecausedStreams s s := fun _ => .refl _

theorem RecausedStreams.of_streams {s t : State} (e : t.streams = s.streams) : RecausedStreams s t := fun h => by
  rw [State.stream, State.stream, e]; exact .refl _

theorem RecausedStreams.trans {s t u : State} (a : RecausedStreams s t) (b : RecausedStreams t u) : RecausedStreams s u :=
  fun h => (a h).trans (b h)

theorem recompute_recaused (s : State) : RecausedStreams s s.recompute := fun h => by
  rw [stream_recompute]; exact Stream.recaused_refreshed _ _

theorem setStale_recaused (b : Bool) (s : State) (p : Nat) : RecausedStreams s (s.setStale b p) := by
  unfold State.setStale
  split
  · exact .refl s
  · exact (RecausedStreams.of_streams (State.setEntry_streams s p _)).trans (recompute_recaused _)

theorem setStales_recaused (b : Bool) (ps : List Nat) (s : State) : RecausedStreams s (ps.foldl (State.setStale b) s) :=
  foldl_frame .refl .trans (setStale_recaused b) ps s

theorem setOutOfStep_recaused (s : State) (p : Nat) : RecausedStreams s (s.setOutOfStep p) := by
  unfold State.setOutOfStep
  split
  · exact .refl s
  · exact (RecausedStreams.of_streams (State.setEntry_streams s p _)).trans (recompute_recaused _)

end Sys2Proof.Machine


/-! ### Records stay lawful, operation by operation (R16) -/

namespace Sys2Proof.Machine

/-- Every record that is lawful before is lawful after. -/
def LawfulKept (s t : State) : Prop := ∀ h, (s.stream h).lawful → (t.stream h).lawful

namespace LawfulKept

theorem refl (s : State) : LawfulKept s s := fun _ => id

theorem trans {s t u : State} (a : LawfulKept s t) (b : LawfulKept t u) : LawfulKept s u := fun h hs => b h (a h hs)

theorem foldl {β : Type} {f : State → β → State} (h : ∀ s x, LawfulKept s (f s x)) (l : List β) (s : State) :
    LawfulKept s (l.foldl f s) := foldl_frame .refl .trans h l s

theorem of_streams {s t : State} (e : t.streams = s.streams) : LawfulKept s t := fun h hs => by
  rw [State.stream, e]; exact hs

theorem of_router {s t : State} (f : RouterFrame s t) : LawfulKept s t := of_streams f.streams

theorem of_recaused {s t : State} (f : RecausedStreams s t) : LawfulKept s t := fun h => (f h).lawful

theorem setStream (s : State) (h : Handle) {r : Stream} (hr : (s.stream h).lawful → r.lawful) :
    LawfulKept s (s.setStream h r) := fun k hk => by
  rw [State.stream_setStream]
  split
  · next e => exact hr (e ▸ hk)
  · exact hk

/-- Every record is replaced by an image of it. -/
theorem map (s : State) {f : Stream → Stream} (hf : ∀ r, r.lawful → (f r).lawful) :
    LawfulKept s { s with streams := s.streams.map f } := fun h hs => by
  rw [State.stream, Tab.get_map]; exact hf _ hs

end LawfulKept

/-- A fold whose steps leave the records leaves them. -/
theorem streams_foldl {β : Type} {f : State → β → State} (h : ∀ s x, (f s x).streams = s.streams) (l : List β) (s : State) :
    (l.foldl f s).streams = s.streams :=
  foldl_frame (R := fun s t : State => t.streams = s.streams) (fun _ => rfl) (fun a b => b.trans a) h l s

/-! What happens to one record -/

theorem Stream.free_lawful : Stream.free.lawful := Stream.lawful_of_other (by decide) (by decide)

theorem Stream.orphanMarked_lawful {r : Stream} : r.orphanMarked.lawful ↔ r.lawful :=
  Stream.lawful_congr (by simp) (by simp)

theorem Stream.accepted_lawful {r : Stream} (h : r.lawful) (op : DraftEntry) : (r.accepted op).lawful := by
  cases op <;> simp only [Stream.accepted]
  case opening => exact lawful_of_other (by simp) (by simp)
  case resizing => exact h
  case setting => exact h
  case closing =>
    split
    · exact h
    · exact lawful_of_other (by simp) (by simp)

/-- R6 to R9. -/
theorem Stream.atSwitch_lawful {r : Stream} (hr : r.lawful) (w : Plan) (h : Handle) (e : Epoch) :
    (r.atSwitch w h e).lawful := by
  have live : r.state = .live ∨ r.state = .suspended →
      (match r.change with
        | .resize n => { r.placed w h e with lanes := n, change := .none }
        | _ => if r.movedBy w h then r.placed w h e else r : Stream).lawful := fun _ => by
    split
    · exact hr
    · split <;> exact hr
  cases hs : r.state <;> simp only [Stream.atSwitch, hs]
  case free => exact hr
  case staged => exact hr
  case switchingIn => exact orphanMarked_lawful.2 (lawful_of_chosen rfl)
  case switchingOut => exact free_lawful
  case live => exact live (.inl hs)
  case suspended => exact live (.inr hs)

/-- R10. -/
theorem Stream.restored_lawful {r : Stream} (hr : r.lawful) : r.restored.lawful := by
  cases hs : r.state <;> simp only [Stream.restored, hs]
  case free => exact hr
  case staged => exact hr
  case switchingIn => exact lawful_of_other (by simp) (by simp)
  case switchingOut => exact orphanMarked_lawful.2 (lawful_of_chosen rfl)
  all_goals
    split
    · exact orphanMarked_lawful.2 (by simpa only [lawful, hs] using hr)
    · exact hr

/-! Recomputations and marks -/

theorem recompute_lawful (s : State) : LawfulKept s s.recompute := .of_recaused (recompute_recaused s)

/-- A change elsewhere, an event, and the recomputation it is reported for. -/
theorem recompute_lawful_of {s t u : State} (e : t.streams = s.streams) (f : RouterFrame t u) : LawfulKept s u.recompute :=
  ((LawfulKept.of_streams e).trans (.of_router f)).trans (recompute_lawful u)

theorem setOutOfStep_lawful (s : State) (p : Nat) : LawfulKept s (s.setOutOfStep p) := .of_recaused (setOutOfStep_recaused s p)

theorem setStale_lawful (b : Bool) (s : State) (p : Nat) : LawfulKept s (s.setStale b p) :=
  .of_recaused (setStale_recaused b s p)

/-! Drafts and batches -/

theorem freeOpened_lawful (s : State) (es : List DraftEntry) : LawfulKept s (s.freeOpened es) :=
  .foldl (fun s h => .setStream s h fun _ => Stream.free_lawful) _ s

theorem discardDraft_lawful (s : State) (p : Port) : LawfulKept s (s.discardDraft p) :=
  (freeOpened_lawful s _).trans (.of_streams rfl)

theorem reject_streams (s : State) (x : CommitEntry × Nat × FailReason) : (s.reject x).streams = s.streams :=
  (notifySession_frame _ _ _ _).streams

theorem completeCommit_streams (s : State) (c : CommitEntry) : (s.completeCommit c).streams = s.streams :=
  (notifySession_frame _ _ _ _).streams

/-- R59: settings taken, the Switch Engine and the Event Fetch Unit apart nothing changes. -/
theorem takeSettings_eq (x : Settings) (s : State) :
    s.takeSettings x = (s.setSwitch { s.switch with settings := x }).setFetch
      { s.fetch with wanted := if x.eventFetch = s.switch.settings.eventFetch then s.fetch.wanted else [] } := by
  unfold State.takeSettings
  dsimp only
  split
  · next h => rw [if_pos h.symm]; rfl
  · next h => rw [if_neg (Ne.symm h)]

theorem takeSettings_streams (x : Settings) (s : State) : (s.takeSettings x).streams = s.streams := by
  rw [takeSettings_eq]; rfl

theorem completeSettings_lawful (v : Validation) (s : State) : LawfulKept s (s.completeSettings v) :=
  ((LawfulKept.of_streams (takeSettings_streams _ s)).trans
    (.foldl (fun s c => .of_streams (completeCommit_streams s c)) _ _)).trans (.of_router (announceSettings_frame _ _ _))

theorem acceptOp_lawful (s : State) (op : DraftEntry) : LawfulKept s (s.acceptOp op) := by
  unfold State.acceptOp
  split
  · exact .setStream s _ fun h => Stream.accepted_lawful h op
  · exact .refl s

theorem acceptCommit_lawful (s : State) (c : CommitEntry) : LawfulKept s (s.acceptCommit c) :=
  (LawfulKept.of_streams (State.setDraft_streams s _ _)).trans (.foldl acceptOp_lawful _ _)

theorem forceOut_lawful (s : State) (h : Handle) : LawfulKept s (s.forceOut h) :=
  .setStream s h fun _ => Stream.lawful_of_other (by simp [Stream.forcedOut]) (by simp [Stream.forcedOut])

theorem handOver_lawful (v : Validation) (s : State) : LawfulKept s (s.handOver v) := by
  unfold State.handOver
  dsimp only
  refine LawfulKept.trans ?_ (.of_streams rfl)
  refine LawfulKept.trans ?_ (.foldl (setStale_lawful true) _ _)
  exact (LawfulKept.foldl forceOut_lawful _ s).trans (.foldl acceptCommit_lawful _ _)

theorem formBatch_lawful (s : State) : LawfulKept s s.formBatch := by
  have h1 : LawfulKept s (s.validate.rejected.foldl State.reject (s.setCommits [])) :=
    (LawfulKept.of_streams rfl).trans (.foldl (fun s x => .of_streams (reject_streams s x)) _ (s.setCommits []))
  unfold State.formBatch
  dsimp only
  split
  · exact h1.trans (handOver_lawful _ _)
  · split
    · exact h1
    · exact h1.trans (completeSettings_lawful _ _)

theorem formIfDue_lawful (s : State) : LawfulKept s s.formIfDue := by
  unfold State.formIfDue
  split
  · exact formBatch_lawful s
  · exact .refl s

/-! The switch -/

theorem endDrafts_streams (l : List (Port × Nat)) (s : State) : (l.foldl State.endDraft s).streams = s.streams :=
  streams_foldl (f := State.endDraft) (fun s c => State.setDraft_streams s c.1 _) l s

theorem stream_switchChanges (b : Batch) (s : State) (h : Handle) :
    (s.switchChanges b).stream h = (s.stream h).atSwitch b.nextPlan h (s.switch.epoch + 1) := by
  unfold State.switchChanges
  rw [State.stream, endDrafts_streams, Tab.get_ofFn]

theorem switchCycle_lawful (s : State) : LawfulKept s s.switchCycle := by
  unfold State.switchCycle
  split
  · split
    · refine LawfulKept.trans (fun h hs => ?_) (.of_router (switchResults_frame _ _ _))
      rw [stream_switchChanges]
      exact Stream.atSwitch_lawful hs _ _ _
    · exact .refl s
  · exact .refl s

theorem returnDraft_lawful (s : State) (c : Port × Nat) : LawfulKept s (s.returnDraft c) := by
  unfold State.returnDraft
  split
  · exact discardDraft_lawful s _
  · exact .of_streams rfl

theorem undoBatch_lawful (b : Batch) (s : State) : LawfulKept s (s.undoBatch b) := by
  unfold State.undoBatch
  dsimp only
  refine LawfulKept.trans ?_ (.of_streams rfl)
  refine LawfulKept.trans ?_ (.foldl returnDraft_lawful _ _)
  exact (LawfulKept.map s fun _ => Stream.restored_lawful).trans (.foldl (setStale_lawful false) _ _)

theorem abandon_lawful (w : AbandonReason) (s : State) : LawfulKept s (s.abandon w) := by
  unfold State.abandon
  split
  · exact (undoBatch_lawful _ s).trans (.foldl (fun s c => .of_router (notifyCommit_frame _ _ _ s)) _ _)
  · exact .refl s

theorem abandonOnLoss_lawful (ps : List Nat) (s : State) : LawfulKept s (s.abandonOnLoss ps) := by
  unfold State.abandonOnLoss
  split
  · exact abandon_lawful _ s
  · exact .refl s

theorem markUnsettled_lawful (s : State) (t : Transfer) : LawfulKept s (s.markUnsettled t) := by
  unfold State.markUnsettled
  split
  · split
    · exact setStale_lawful true s _
    · exact setOutOfStep_lawful s _
  · exact .refl s

theorem settleEnd_lawful (s : State) : LawfulKept s s.settleEnd :=
  (LawfulKept.foldl markUnsettled_lawful _ s).trans (.of_streams rfl)

theorem readSwitch_lawful (a : Arrival) (s : State) : LawfulKept s (s.readSwitch a) := by
  unfold State.readSwitch
  split
  · exact .refl s
  · unfold State.readPrepare
    split
    · exact .refl s
    · split
      · exact abandon_lawful _ s
      · exact .of_streams rfl
  · exact .of_streams rfl
  · dsimp only
    split
    · exact (LawfulKept.of_streams (State.setSwitch_streams s _)).trans (settleEnd_lawful _)
    · exact .of_streams rfl

/-! Hops, remote access, event fetch -/

theorem reportHops_lawful (old s : State) : LawfulKept s (State.reportHops old s) := by
  unfold State.reportHops
  dsimp only
  have h1 := RouterFrame.foldl
    (fun s p => raise?_frame s (hopEvent p (old.entry p).hopState (s.entry p).hopState)) positions s
  split
  · exact recompute_lawful_of rfl h1
  · exact .of_router h1

theorem gradeHop_streams (t : Trail) (m : Nat) (s : State) (p : Nat) : (s.gradeHop t m p).streams = s.streams := by
  unfold State.gradeHop
  split <;> rfl

theorem readHops_lawful (a : Arrival) (s : State) : LawfulKept s (s.readHops a) :=
  (LawfulKept.foldl (fun s p => .of_streams (gradeHop_streams _ _ s p)) positions s).trans (reportHops_lawful s _)

theorem recoverHop_lawful (p : Nat) (s : State) : LawfulKept s (s.recoverHop p) :=
  (LawfulKept.of_streams (State.setEntry_streams s p _)).trans (reportHops_lawful s _)

theorem failRemotes_streams (p : Port) (w : RemoteReason) (l : List RemoteRequest) (s : State) :
    (l.foldl (State.failRemote p w) s).streams = s.streams := (RouterFrame.foldl (failRemote_frame p w) l s).streams

theorem loseRemote_streams (ps : List Nat) (s : State) (p : Port) : (s.loseRemote ps p).streams = s.streams :=
  failRemotes_streams p _ _ _

theorem answerRemote_streams (a : Arrival) (o : Outstanding) (s : State) : (s.answerRemote a o).streams = s.streams := by
  unfold State.answerRemote
  split
  · exact (remoteResult_frame s _ _ _).streams
  · split
    · rfl
    · exact (remoteResult_frame s _ _ _).streams

theorem readRemote_streams (a : Arrival) (s : State) : (s.readRemote a).streams = s.streams := by
  unfold State.readRemote
  split
  · split
    · rfl
    · exact answerRemote_streams a _ _
  · rfl

theorem takeEvent_streams (p : Nat) (ans : Option Answer) (s : State) : (s.takeEvent p ans).streams = s.streams := by
  unfold State.takeEvent
  split
  · dsimp only
    split
    · split
      · exact (raise_frame _ _).streams
      · rfl
    · rfl
  · rfl

theorem answerFetch_streams (a : Arrival) (s : State) : (s.answerFetch a).streams = s.streams := by
  unfold State.answerFetch
  split
  · exact takeEvent_streams _ _ _
  · rfl

theorem readPending_streams (t : Trail) (s : State) : (s.readPending t).streams = s.streams := by
  unfold State.readPending
  split <;> rfl

theorem readFetch_streams (a : Arrival) (s : State) : (s.readFetch a).streams = s.streams :=
  (readPending_streams _ _).trans (answerFetch_streams a s)

/-! The chain -/

theorem reportLosses_lawful (ps : List Nat) (s : State) : LawfulKept s (s.reportLosses ps) := by
  unfold State.reportLosses
  refine LawfulKept.trans ?_ (.foldl (fun s p => .of_streams (loseRemote_streams ps s p)) _ _)
  exact ((recompute_lawful s).trans (abandonOnLoss_lawful ps _)).trans (.of_streams (State.setFetch_streams _ _))

theorem losePositions_lawful (ps : List Nat) (s : State) : LawfulKept s (s.losePositions ps) := by
  unfold State.losePositions
  split
  · exact .refl s
  · refine LawfulKept.trans ?_ (reportLosses_lawful ps _)
    exact (LawfulKept.of_streams (State.setChain_streams s _)).trans (.foldl (fun s _ => .of_router (raise_frame s _)) _ _)

theorem breakChain_lawful (s : State) : LawfulKept s s.breakChain :=
  (LawfulKept.of_streams (State.setChain_streams s _)).trans (losePositions_lawful _ _)

theorem moveEntry_lawful (s : State) (p : Nat) : LawfulKept s (s.moveEntry p) := by
  unfold State.moveEntry
  split
  · exact recompute_lawful_of (State.setEntry_streams s p _) (raise_frame _ _)
  · split
    · exact recompute_lawful_of (State.setEntry_streams s p _) (.refl _)
    · exact .refl s

theorem moveEntries_lawful (s : State) : LawfulKept s s.moveEntries := .foldl moveEntry_lawful positions s

theorem settleWork_lawful (m : Meet) (s : State) : LawfulKept s (s.settleWork m) := by
  cases m
  · exact ((moveEntries_lawful s).trans (formIfDue_lawful _)).trans (.of_streams (State.setChain_streams _ _))
  · exact ((formIfDue_lawful s).trans (moveEntries_lawful _)).trans (.of_streams (State.setChain_streams _ _))

theorem applyBreak_lawful (a : Arrival) (m : Meet) (s : State) : LawfulKept s (s.applyBreak a m) := by
  unfold State.applyBreak
  dsimp only
  refine LawfulKept.trans (.of_streams (State.setChain_streams s (s.chain.countShort a.trail.reach))) ?_
  split
  · exact (breakChain_lawful _).trans (settleWork_lawful m _)
  · exact .refl _

theorem readEntries_lawful (a : Arrival) (s : State) : LawfulKept s (s.readEntries a) :=
  (LawfulKept.of_streams (State.setChain_streams s _)).trans (moveEntries_lawful _)

theorem markReplaced_lawful (p : Nat) (s : State) : LawfulKept s (s.markReplaced p) :=
  .map s fun r h => by split <;> exact h

theorem enrollInBringUp_lawful (p : Nat) (i : Identity) (s : State) : LawfulKept s (s.enrollInBringUp p i) :=
  recompute_lawful_of (State.setChain_streams s _) (raise_frame _ _)

theorem enrollByProbe_lawful (p : Nat) (i : Identity) (s : State) : LawfulKept s (s.enrollByProbe p i) := by
  unfold State.enrollByProbe
  split
  · split
    · exact recompute_lawful_of (State.setChain_streams s _) (raise_frame _ _)
    · have h1 := LawfulKept.of_streams (State.setChain_streams s (s.chain.setEntry p ((s.entry p).joinNew i)).endChanged)
      exact (h1.trans (markReplaced_lawful p _)).trans (recompute_lawful_of (raise_frame _ _).streams (raise_frame _ _))
  · exact recompute_lawful_of (State.setChain_streams s _) (raise_frame _ _)

theorem answerSeek_lawful (p : Nat) (ans : Option Answer) (s : State) : LawfulKept s (s.answerSeek p ans) := by
  unfold State.answerSeek
  split
  · split
    · split
      · exact enrollInBringUp_lawful p _ s
      · split
        · exact .of_streams rfl
        · exact .refl s
    · exact .refl s
  · exact .refl s

theorem answerProbe_lawful (p : Nat) (ans : Option Answer) (s : State) : LawfulKept s (s.answerProbe p ans) := by
  unfold State.answerProbe
  split
  · split
    · exact enrollByProbe_lawful p _ s
    · exact .refl s
  · exact .refl s

theorem answerExtend_streams (p : Nat) (ans : Option Answer) (s : State) : (s.answerExtend p ans).streams = s.streams := by
  unfold State.answerExtend
  split <;> rfl

theorem answerResync_lawful (p : Nat) (ans : Option Answer) (s : State) : LawfulKept s (s.answerResync p ans) := by
  unfold State.answerResync
  split
  · split
    · split
      · exact recompute_lawful_of (State.setChain_streams s _) (raise_frame _ _)
      · unfold State.resyncFailed
        split
        · exact .of_streams rfl
        · exact losePositions_lawful _ s
    · exact .refl s
  · exact .refl s

theorem answerChain_lawful (a : Arrival) (s : State) : LawfulKept s (s.answerChain a) := by
  unfold State.answerChain
  split
  · exact answerSeek_lawful _ _ s
  · exact .of_streams (answerExtend_streams _ _ s)
  · exact answerResync_lawful _ _ s
  · exact answerProbe_lawful _ _ s
  all_goals exact .refl s

theorem readChain_lawful (a : Arrival) (m : Meet) (s : State) : LawfulKept s (s.readChain a m) := by
  unfold State.readChain
  refine LawfulKept.trans ?_ (answerChain_lawful a _)
  refine LawfulKept.trans ?_ (readEntries_lawful a _)
  exact (LawfulKept.of_streams (State.setChain_streams s _)).trans (applyBreak_lawful a m _)

/-! The trail arrival -/

theorem runReader_lawful (a : Arrival) (m : Meet) (s : State) (r : Reader) : LawfulKept s (s.runReader a m r) := by
  cases r with
  | hop => exact (readHops_lawful a s).trans (settleWork_lawful m _)
  | chain => exact (readChain_lawful a m s).trans (settleWork_lawful m _)
  | switch => exact (readSwitch_lawful a s).trans (settleWork_lawful m _)
  | fetch => exact (LawfulKept.of_streams (readFetch_streams a s)).trans (settleWork_lawful m _)
  | remote => exact (LawfulKept.of_streams (readRemote_streams a s)).trans (settleWork_lawful m _)

theorem arrive_lawful (up : Option UpPass) (o : TrailOrder) (s : State) : LawfulKept s (s.arrive up o) := by
  unfold State.arrive
  split
  · exact (LawfulKept.of_streams (State.setCycle_streams s _)).trans (.foldl (runReader_lawful _ _) _ _)
  · exact .refl s

theorem openCycle_lawful (s : State) : LawfulKept s s.openCycle := by
  unfold State.openCycle
  split
  · exact .refl s
  · exact (arrive_lawful none TrailOrder.default s).trans (.of_streams rfl)

/-! Session ends and the acts of a cycle start -/

theorem settleDraft_lawful (p : Port) (s : State) : LawfulKept s (s.settleDraft p) := by
  unfold State.settleDraft
  split
  · exact .refl s
  · exact discardDraft_lawful s p
  · exact (LawfulKept.of_streams (State.setCommits_streams s _)).trans (discardDraft_lawful _ p)
  · exact .of_streams rfl

theorem orphanStreams_lawful (p : Port) (k : Nat) (s : State) : LawfulKept s (s.orphanStreams p k) :=
  .map s fun r h => by
    split
    · exact Stream.orphanMarked_lawful.2 h
    · exact h

theorem endSession_lawful (p : Port) (w : EndReason) (s : State) : LawfulKept s (s.endSession p w) := by
  unfold State.endSession
  refine LawfulKept.trans ?_ (.of_streams rfl)
  refine LawfulKept.trans ?_ (orphanStreams_lawful p _ _)
  exact (LawfulKept.of_streams (State.setPort_streams s p _)).trans (settleDraft_lawful p _)

theorem expireLease_lawful (p : Port) (s : State) : LawfulKept s (s.expireLease p) :=
  (endSession_lawful p _ s).trans (formIfDue_lawful _)

theorem tickLease_lawful (p : Port) (s : State) : LawfulKept s (s.tickLease p) := by
  rcases tickLease_cases p s with ⟨e, -⟩ | ⟨n, -, -, -, e⟩ | ⟨e, -⟩ <;> rw [e]
  · exact expireLease_lawful p s
  · exact .of_streams rfl
  · exact .refl s

theorem headChecks_streams (s : State) : s.headChecks.streams = s.streams :=
  streams_foldl (fun s p => (failRemotes_streams p _ _ _).trans (State.setRemoteQueue_streams s p _)) allPorts s

theorem sendResync_streams (r : ResyncTransfer) (s : State) : (s.sendResync r).1.streams = s.streams := by
  unfold State.sendResync
  dsimp only
  split <;> rfl

theorem sendChain_streams (i : ChainItem) (s : State) : (s.sendChain i).1.streams = s.streams := by
  have resync : (match s.chain.resync with
      | some r => s.sendResync r
      | none => (s, ControlMsg.idle)).1.streams = s.streams := by
    split
    · exact sendResync_streams _ s
    · rfl
  cases i <;> simp only [State.sendChain]
  case bringUpExtend => split <;> rfl
  case bringUpSeek => split <;> rfl
  case extend => split <;> rfl
  case resyncLine => exact resync
  case resyncSeal => exact resync
  case probe => rfl

theorem fill_streams (c : Option Client) (s : State) : (s.fill c).1.streams = s.streams := by
  unfold State.fill
  split
  · rfl
  · rfl
  · exact sendChain_streams _ s
  · unfold State.sendFetch; split <;> rfl
  · unfold State.sendRemote; split <;> rfl

theorem tickBringUp_streams (s : State) : s.tickBringUp.streams = s.streams := by
  unfold State.tickBringUp
  split <;> rfl

theorem grantTo_streams (c : Option Client) (s : State) : (s.grantTo c).streams = s.streams := by
  unfold State.grantTo
  rw [tickBringUp_streams]
  exact fill_streams c s

theorem grantSlot_streams (s : State) : s.grantSlot.streams = s.streams :=
  (grantTo_streams _ s.headChecks).trans (headChecks_streams s)

theorem tickProbe_streams (s : State) : s.tickProbe.streams = s.streams := by
  unfold State.tickProbe
  split
  · rfl
  · rfl
  · split <;> rfl

theorem firstBringUp_streams (s : State) : s.firstBringUp.streams = s.streams := by
  unfold State.firstBringUp
  split <;> rfl

theorem runAct_lawful (m : Tab Sample 64) (s : State) (a : CycleAct) : LawfulKept s (s.runAct m a) := by
  cases a with
  | lease p => exact tickLease_lawful p s
  | switch => exact switchCycle_lawful s
  | probe => exact .of_streams (tickProbe_streams s)
  | slot => exact .of_streams (grantSlot_streams s)
  | lead => exact .of_streams (firstBringUp_streams s)

theorem nextCycle_lawful (m : Tab Sample 64) (o : List CycleAct) (s : State) : LawfulKept s (s.nextCycle m o) := by
  unfold State.nextCycle State.makeActs
  refine (openCycle_lawful s).trans ?_
  exact (LawfulKept.foldl (runAct_lawful m) _ _).trans (.of_streams rfl)

theorem actAlone_lawful {due : State → Bool} {a : CycleAct} {act : State → State} (h : ∀ s, LawfulKept s (act s)) (s : State) :
    LawfulKept s (s.actAlone due a act) := by
  unfold State.actAlone
  split
  · exact ((openCycle_lawful s).trans (h _)).trans (.of_streams rfl)
  · exact .refl s

theorem underGuard_lawful {c : State → Bool} {f : State → State} (h : ∀ s, LawfulKept s (f s)) (s : State) :
    LawfulKept s (s.underGuard c f) := by
  unfold State.underGuard
  split
  · exact h s
  · exact .refl s

theorem leaveJoining_lawful (p : Nat) (s : State) : LawfulKept s (s.leaveJoining p) := by
  unfold State.leaveJoining
  split
  · exact (moveEntry_lawful s p).trans (.of_streams rfl)
  · exact moveEntry_lawful s p

end Sys2Proof.Machine


/-! ### Requests and commands: records stay lawful, the cycle start in progress stays as it is -/

namespace Sys2Proof.Machine

/-- What every owner of a request keeps besides `Owned`: records stay lawful (R16), and no act of a cycle start is made. -/
structure OwnerKeeps (s t : State) : Prop where
  lawful : LawfulKept s t
  begun : t.cycle.begun = s.cycle.begun

namespace OwnerKeeps

theorem refl (s : State) : OwnerKeeps s s := ⟨.refl s, rfl⟩

theorem trans {s t u : State} (a : OwnerKeeps s t) (b : OwnerKeeps t u) : OwnerKeeps s u :=
  ⟨a.lawful.trans b.lawful, b.begun.trans a.begun⟩

theorem of_frame {s t : State} (f : TrailFrame s t) (h : LawfulKept s t) : OwnerKeeps s t := ⟨h, by rw [f.cycle]⟩

theorem setPort (s : State) (p : Port) (c : PortContext) : OwnerKeeps s (s.setPort p c) := ⟨.of_streams rfl, rfl⟩

theorem stage (p : Port) (e : DraftEntry) (s : State) : OwnerKeeps s (s.stage p e) := ⟨.of_streams rfl, rfl⟩

theorem discardDraft (s : State) (p : Port) : OwnerKeeps s (s.discardDraft p) :=
  .of_frame (discardDraft_frame s p).toTrailFrame (discardDraft_lawful s p)

theorem formIfDue (s : State) : OwnerKeeps s s.formIfDue := .of_frame (formIfDue_frame s).toTrailFrame (formIfDue_lawful s)

end OwnerKeeps

theorem takeAttach_keeps (p : Port) (a : Byte) (s : State) : OwnerKeeps s (s.takeAttach p a).1 := by
  unfold State.takeAttach
  split
  · exact .refl s
  · exact .setPort s p _

theorem takeDetach_keeps (p : Port) (a : Unit) (s : State) : OwnerKeeps s (s.takeDetach p a).1 :=
  ⟨endSession_lawful p _ s, congrArg CycleEngine.begun (endSession_frame p .detach s).cycle⟩

theorem newStream_lawful (s : State) (p : Port) (source : Nat) (sinks : List Nat) (lanes : Nat) (label : BitVec 16) :
    (s.newStream p source sinks lanes label).lawful :=
  Stream.lawful_of_other (by simp [State.newStream]) (by simp [State.newStream])

theorem takeDraftOpen_keeps (p : Port) (a : OpenArgs) (s : State) : OwnerKeeps s (s.takeDraftOpen p a).1 := by
  unfold State.takeDraftOpen
  split
  · exact .refl s
  · split
    · exact .refl s
    · split
      · exact .refl s
      · split
        · exact .refl s
        · exact OwnerKeeps.trans ⟨.setStream s _ fun _ => newStream_lawful s p _ _ _ _, rfl⟩ (.stage p _ _)

theorem takeDraftClose_keeps (p : Port) (a : Byte) (s : State) : OwnerKeeps s (s.takeDraftClose p a).1 := by
  unfold State.takeDraftClose
  split
  · exact .refl s
  · split
    · exact .refl s
    · split
      · exact .refl s
      · exact .stage p _ s

theorem takeDraftResize_keeps (p : Port) (a : ResizeArgs) (s : State) : OwnerKeeps s (s.takeDraftResize p a).1 := by
  unfold State.takeDraftResize
  split
  · split
    · exact .refl s
    · split
      · exact .refl s
      · split
        · exact .refl s
        · exact .stage p _ s
  · exact .refl s

theorem takeDraftSet_keeps (p : Port) (a : SetArgs) (s : State) : OwnerKeeps s (s.takeDraftSet p a).1 := by
  unfold State.takeDraftSet
  split
  · exact .refl s
  · split
    · exact .refl s
    · exact .stage p _ s

theorem takeDraftDrop_keeps (p : Port) (a : Byte) (s : State) : OwnerKeeps s (s.takeDraftDrop p a).1 := by
  unfold State.takeDraftDrop
  split
  · exact .refl s
  · split
    · exact .refl s
    · split
      · exact .refl s
      · exact (OwnerKeeps.of_frame (freeOpened_frame s _).toTrailFrame (freeOpened_lawful s _)).trans ⟨.of_streams rfl, rfl⟩

theorem takeDraftClear_keeps (p : Port) (a : Unit) (s : State) : OwnerKeeps s (s.takeDraftClear p a).1 := by
  unfold State.takeDraftClear
  split
  · exact .refl s
  · exact .refl s
  · exact .refl s
  · exact .discardDraft s p

theorem takeDraftView_keeps (p : Port) (a : Byte) (s : State) : OwnerKeeps s (s.takeDraftView p a).1 := by
  unfold State.takeDraftView
  split <;> exact .refl s

theorem takeCommit_keeps (p : Port) (a : Byte) (s : State) : OwnerKeeps s (s.takeCommit p a).1 := by
  unfold State.takeCommit
  split
  · exact .refl s
  · split
    · exact ⟨.of_streams rfl, rfl⟩
    all_goals exact .refl s

theorem takeWithdraw_keeps (p : Port) (a : Unit) (s : State) : OwnerKeeps s (s.takeWithdraw p a).1 := by
  unfold State.takeWithdraw
  split
  · exact ⟨.of_streams rfl, rfl⟩
  all_goals exact .refl s

theorem takeStreamInfo_keeps (a : Byte) (s : State) : OwnerKeeps s (s.takeStreamInfo a).1 := by
  unfold State.takeStreamInfo
  split <;> exact .refl s

theorem takeListStreams_keeps (a : Byte) (s : State) : OwnerKeeps s (s.takeListStreams a).1 := by
  unfold State.takeListStreams
  split <;> exact .refl s

theorem takeChainInfo_keeps (a : Byte) (s : State) : OwnerKeeps s (s.takeChainInfo a).1 := by
  unfold State.takeChainInfo
  split
  · exact .refl s
  · split <;> exact .refl s

theorem takeRemote_keeps (p : Port) (r : Option RemoteRequest) (s : State) : OwnerKeeps s (s.takeRemote p r).1 := by
  unfold State.takeRemote
  split
  · exact .refl s
  · split
    · exact .refl s
    · split
      · exact .refl s
      · split
        · exact .refl s
        · exact ⟨.of_streams rfl, rfl⟩

theorem takeSubscribe_keeps (p : Port) (a : SubscribeArgs) (s : State) : OwnerKeeps s (s.takeSubscribe p a).1 := by
  unfold State.takeSubscribe
  split
  · exact .refl s
  · exact ⟨.of_streams rfl, rfl⟩

theorem takeReadQueue_keeps (p : Port) (a : Byte) (s : State) : OwnerKeeps s (s.takeReadQueue p a).1 := by
  unfold State.takeReadQueue
  split
  · exact .refl s
  · exact ⟨.of_streams rfl, rfl⟩

/-! The accepted restart -/

theorem restartStream_lawful (p : Port) (s : State) (h : Handle) : LawfulKept s (s.restartStream p h) := by
  unfold State.restartStream
  split
  · exact (LawfulKept.setStream s h fun _ => Stream.free_lawful).trans (.of_router (notifyOwner?_frame _ _ _))
  · exact .refl s

theorem restartRemote_streams (s : State) : s.restartRemote.streams = s.streams := by
  unfold State.restartRemote
  rw [streams_foldl]
  · rfl
  · exact fun t p => failRemotes_streams p _ (s.restartFails p) t

/-- Of an accepted restart only the requester's streams becoming FREE touches the records. -/
theorem restartChain_streams (p : Port) (s : State) :
    (s.restartChain p).streams = (allHandles.foldl (State.restartStream p) s).streams := by
  unfold State.restartChain
  dsimp only
  rw [(raise_frame _ _).streams, State.setFetch_streams, restartRemote_streams, State.enablePort, State.setCycle_streams,
    State.setChain_streams, State.setSwitch_streams, State.setDraft_streams]

theorem restartChain_lawful (p : Port) (s : State) : LawfulKept s (s.restartChain p) :=
  (LawfulKept.foldl (restartStream_lawful p) allHandles s).trans (.of_streams (restartChain_streams p s))

theorem takeChainRestart_keeps (p : Port) (a : Unit) (s : State) : OwnerKeeps s (s.takeChainRestart p a).1 := by
  unfold State.takeChainRestart
  split
  · exact .refl s
  · split
    · exact .refl s
    · dsimp only
      have hc : (s.restartChain p).cycle = s.enablePort.cycle := (restartChain_frame p s).cycle
      exact ⟨restartChain_lawful p s, by rw [hc]; rfl⟩

/-! The request frame and the other transactions -/

theorem requestThen_keeps {α : Type} {open? : Bool} {p : Port} {b : Sized α} {owner : α → State → State × Response}
    {after : State → State} (h : ∀ a s, OwnerKeeps s (owner a s).1) (ha : ∀ s, OwnerKeeps s (after s)) (s : State) :
    OwnerKeeps s (s.requestThen open? p b owner after) := by
  have taken : OwnerKeeps s (s.takeRequest open? p b owner).1 := by
    unfold State.takeRequest
    split
    · exact .refl s
    · split
      · exact .refl s
      · exact h _ s
  have answered (r : Response) : OwnerKeeps s ((s.takeRequest open? p b owner).1.respond p r) := taken.trans (.setPort _ p _)
  unfold State.requestThen
  split
  · exact .setPort s p _
  · dsimp only
    split
    · exact (answered _).trans (ha _)
    · exact answered _

theorem request_keeps {α : Type} {open? : Bool} {p : Port} {b : Sized α} {owner : α → State → State × Response}
    (h : ∀ a s, OwnerKeeps s (owner a s).1) (s : State) : OwnerKeeps s (s.request open? p b owner) :=
  requestThen_keeps h .refl s

theorem refuse_keeps (p : Port) (st : Status) (s : State) : OwnerKeeps s (s.refuse p st) := by
  unfold State.refuse
  split <;> exact .setPort s p _

/-- What a command keeps on a head that is not held in reset, it keeps. -/
theorem whenReleased_keeps {R : State → State → Prop} (refl : ∀ s, R s s) {f : State → State} (h : ∀ s, R s (f s)) {s t : State}
    (e : s.whenReleased f = .next t) : R s t := by
  unfold State.whenReleased at e
  cases e
  split
  · exact h s
  · exact refl s

/-- What a transaction of a host port keeps. -/
theorem exec_keeps_of_hostPort {c : Instr} {p : Port} (hc : hostPort c = some p) {s t : State} (e : exec c s = .next t) :
    OwnerKeeps s t := by
  have released {f : State → State} (h : ∀ s, OwnerKeeps s (f s)) (e : s.whenReleased f = .next t) : OwnerKeeps s t :=
    whenReleased_keeps .refl h e
  cases c
  case frameError q _ => exact released (refuse_keeps q _) e
  case badRequest q _ _ => exact released (refuse_keeps q _) e
  case responseRead q n => exact released (fun s => .setPort s q ((s.port q).readOut n)) e
  case attach q _ => exact released (request_keeps (takeAttach_keeps q)) e
  case detach q _ => exact released (requestThen_keeps (takeDetach_keeps q) .formIfDue) e
  case portStatus q _ => exact released (request_keeps fun _ => .refl) e
  case draftOpen q _ => exact released (request_keeps (takeDraftOpen_keeps q)) e
  case draftClose q _ => exact released (request_keeps (takeDraftClose_keeps q)) e
  case draftResize q _ => exact released (request_keeps (takeDraftResize_keeps q)) e
  case draftSet q _ => exact released (request_keeps (takeDraftSet_keeps q)) e
  case draftDrop q _ => exact released (request_keeps (takeDraftDrop_keeps q)) e
  case draftClear q _ => exact released (request_keeps (takeDraftClear_keeps q)) e
  case draftView q _ => exact released (request_keeps (takeDraftView_keeps q)) e
  case commit q _ => exact released (requestThen_keeps (takeCommit_keeps q) .formIfDue) e
  case withdraw q _ => exact released (request_keeps (takeWithdraw_keeps q)) e
  case streamInfo q _ => exact released (request_keeps takeStreamInfo_keeps) e
  case listStreams q _ => exact released (request_keeps takeListStreams_keeps) e
  case planInfo q _ => exact released (request_keeps fun _ => .refl) e
  case chainInfo q _ => exact released (request_keeps takeChainInfo_keeps) e
  case chainRestart q _ => exact released (request_keeps (takeChainRestart_keeps q)) e
  case remoteRead q _ => exact released (request_keeps fun _ => takeRemote_keeps q _) e
  case remoteWrite q _ => exact released (request_keeps fun _ => takeRemote_keeps q _) e
  case subscribe q _ => exact released (request_keeps (takeSubscribe_keeps q)) e
  case readQueue q _ => exact released (request_keeps (takeReadQueue_keeps q)) e
  all_goals cases hc

theorem reset_streamLaw : State.reset.streamLaw := fun h => by
  rw [State.stream, State.reset, Tab.get_fill]; exact Stream.free_lawful

/-- R16 at every command. -/
theorem exec_lawful (c : Instr) {s t : State} (e : exec c s = .next t) : LawfulKept s t := by
  have released {f : State → State} (h : ∀ s, LawfulKept s (f s)) (e : s.whenReleased f = .next t) : LawfulKept s t :=
    whenReleased_keeps .refl h e
  cases c
  case deviceReset => cases e; exact fun h _ => reset_streamLaw h
  case resetRelease => cases e; exact .of_streams rfl
  case cycleStart m o => exact released (nextCycle_lawful m o) e
  case trailArrival up o => exact released (arrive_lawful (some up) o) e
  case receiveWindowClose o => exact released (arrive_lawful none o) e
  case leaseExpiry p => exact released (actAlone_lawful (expireLease_lawful p)) e
  case probeDue => exact released (actAlone_lawful fun s => .of_streams (tickProbe_streams s)) e
  case bringupSeek => exact released (actAlone_lawful fun s => .of_streams (grantSlot_streams s)) e
  case switchCycle => exact released (actAlone_lawful switchCycle_lawful) e
  case batchFormation => exact released formIfDue_lawful e
  case isolationRecovery p =>
    exact released (underGuard_lawful fun s => (recoverHop_lawful p s).trans (settleWork_lawful _ _)) e
  case breakDetected m => exact released (underGuard_lawful fun s => (breakChain_lawful s).trans (settleWork_lawful m _)) e
  case quietCountComplete p => exact released (underGuard_lawful (leaveJoining_lawful p)) e
  case resyncEntry =>
    exact released (underGuard_lawful fun s => (moveEntries_lawful s).trans (.of_streams (State.setChain_streams _ _))) e
  case prepareTimeout m =>
    exact released (underGuard_lawful fun s => (abandon_lawful _ s).trans (settleWork_lawful m _)) e
  case settleEnd m => exact released (underGuard_lawful fun s => (settleEnd_lawful s).trans (settleWork_lawful m _)) e
  all_goals exact (exec_keeps_of_hostPort rfl e).lawful

/-- Settles O55: R16 holds of every record after each command because each operation leaves each lawful record lawful. -/
theorem streamCausesKept : Obligations.StreamCausesKept := by
  unfold Obligations.StreamCausesKept
  intro s t hs e
  unfold step at e
  split at e
  · cases e; exact hs
  · exact fun h => exec_lawful _ e h (hs h)

end Sys2Proof.Machine


/-! ### The requests that read, DRAFT_OPEN and the reset values -/

namespace Sys2Proof.Machine

/-! Operand fields (R19, R120) -/

theorem handleOf_eq_some {b : Byte} {h : Handle} (e : b.toNat = h.val) : handleOf b = some h := by
  simp [handleOf, e]

theorem handleOf_eq_none {b : Byte} (e : 32 ≤ b.toNat) : handleOf b = none := by
  simp [handleOf, e]

theorem positionOf_eq_some {b : Byte} (e : b.toNat ≤ 15) : positionOf b = some ⟨b.toNat, by omega⟩ := by
  have h : b.toNat < 16 := by omega
  simp [positionOf, h]

theorem positionOf_eq_none {b : Byte} (e : 16 ≤ b.toNat) : positionOf b = none := by
  simp [positionOf, e]

/-! LIST_STREAMS (R20) -/

theorem mem_listable (s : State) (first h : Handle) : h ∈ s.listable first ↔ first ≤ h ∧ (s.stream h).state ≠ .free := by
  simp [State.listable, mem_allHandles]

theorem listable_pairwise (s : State) (first : Handle) : (s.listable first).Pairwise (· < ·) := allHandles_pairwise.filter _

theorem listItem_handles (s : State) (l : List Handle) : (l.map s.listItem).map ListItem.handle = l := by
  rw [List.map_map]; exact List.map_id l

/-- An element of an ascending list is among the first n, or not below the one that follows them. -/
theorem mem_take_or_head_drop {l : List Handle} (hl : l.Pairwise (· < ·)) (n : Nat) {h : Handle} (hh : h ∈ l) :
    h ∈ l.take n ∨ ∃ k, (l.drop n).head? = some k ∧ k ≤ h := by
  rw [← List.take_append_drop n l, List.mem_append] at hh
  refine hh.imp_right fun hd => ?_
  have hp : (l.drop n).Pairwise (· < ·) := hl.drop
  cases hr : l.drop n with
  | nil => rw [hr] at hd; cases hd
  | cons k rest =>
    rw [hr] at hd hp
    refine ⟨k, rfl, ?_⟩
    rcases List.mem_cons.1 hd with e | e
    · exact e ▸ le_refl k
    · exact (List.rel_of_pairwise_cons hp e).le

/-- The element after the first n of an ascending list: there are n, all below it. -/
theorem take_lt_head_drop {l : List Handle} (hl : l.Pairwise (· < ·)) {n : Nat} {k : Handle} (hk : (l.drop n).head? = some k) :
    k ∈ l ∧ (l.take n).length = n ∧ ∀ h ∈ l.take n, h < k := by
  have hmem : k ∈ l.drop n := List.mem_of_head? hk
  refine ⟨List.mem_of_mem_drop hmem, ?_, fun h hh => ?_⟩
  · have : 0 < (l.drop n).length := List.length_pos_of_mem hmem
    rw [List.length_drop] at this
    rw [List.length_take]
    omega
  · rw [← List.take_append_drop n l, List.pairwise_append] at hl
    exact hl.2.2 h hh k hmem

/-- Settles O28: the items are the first 8 of the ascending non-FREE handles, the next handle the ninth. -/
theorem listStreamsWalksTable : Obligations.ListStreamsWalksTable := by
  unfold Obligations.ListStreamsWalksTable
  intro p b first s hs hb
  have asc := listable_pairwise s first
  refine ⟨((s.listable first).take 8).map s.listItem, ((s.listable first).drop 8).head?, ?_, ?_, ?_, ?_, ?_, ?_⟩
  · exact requestThen_accepted false p b State.takeListStreams id s s _ hs
      (by simp only [State.takeListStreams, handleOf_eq_some hb]) rfl
  · rw [List.length_map]; exact List.length_take_le 8 _
  · rw [listItem_handles]; exact asc.take
  · intro i hi
    obtain ⟨h, hh, rfl⟩ := List.mem_map.1 hi
    obtain ⟨hle, hfree⟩ := (mem_listable s first h).1 (List.mem_of_mem_take hh)
    exact ⟨hle, rfl, hfree, rfl, rfl⟩
  · intro h hle hfree
    rw [listItem_handles]
    exact mem_take_or_head_drop asc 8 ((mem_listable s first h).2 ⟨hle, hfree⟩)
  · intro k hk
    obtain ⟨hmem, hlen, hlt⟩ := take_lt_head_drop asc hk
    refine ⟨((mem_listable s first k).1 hmem).2, by rw [List.length_map, hlen], fun i hi => ?_⟩
    obtain ⟨h, hh, rfl⟩ := List.mem_map.1 hi
    exact hlt h hh

/-! STREAM_INFO, PLAN_INFO, CHAIN_INFO (R19, R85, R120) -/

/-- Settles O27: each query answers with the values held, or refuses its field. -/
theorem queriesReportRegisters : Obligations.QueriesReportRegisters := by
  unfold Obligations.QueriesReportRegisters
  intro p b s hs
  refine ⟨fun h e => ?_, fun e => ?_, ?_, fun e => ?_, fun e1 e2 => ?_, fun e => ?_⟩
  · exact requestThen_accepted false p b State.takeStreamInfo id s s _ hs
      (by simp only [State.takeStreamInfo, handleOf_eq_some e]) rfl
  · exact requestThen_refused false p b State.takeStreamInfo id s _ hs
      (by simp only [State.takeStreamInfo, handleOf_eq_none e]) rfl
  · exact requestThen_accepted false p () State.takePlanInfo id s s _ hs rfl rfl
  · exact requestThen_accepted false p b State.takeChainInfo id s s _ hs
      (by simp only [State.takeChainInfo, positionOf_eq_some (show b.toNat ≤ 15 by omega), e, if_true]; rfl) rfl
  · have h0 : b.toNat ≠ 0 := by omega
    exact requestThen_accepted false p b State.takeChainInfo id s s _ hs
      (by simp only [State.takeChainInfo, positionOf_eq_some e2, h0, if_false]) rfl
  · exact requestThen_refused false p b State.takeChainInfo id s _ hs
      (by simp only [State.takeChainInfo, positionOf_eq_none e]) rfl

/-! DRAFT_OPEN (R3, R45) -/

theorem draft_names_eq_false {d : Draft} {h : Handle} (e : ∀ x ∈ d.entries, x.handle? ≠ some h) : d.names h = false := by
  simpa [Draft.names] using e

/-- R3: the handle allocated is the lowest that is FREE and not named by the draft. -/
theorem allocatable_eq_some {s : State} {p : Port} {h : Handle} (hfree : (s.stream h).state = .free)
    (hname : ∀ e ∈ (s.draft p).entries, e.handle? ≠ some h)
    (hlow : ∀ k, k < h → (s.stream k).state ≠ .free ∨ ∃ e ∈ (s.draft p).entries, e.handle? = some k) :
    s.allocatable p = some h := by
  obtain ⟨before, rest, hl⟩ := List.append_of_mem (mem_allHandles h)
  refine List.find?_eq_some_iff_append.2 ⟨by simp [hfree, draft_names_eq_false hname], before, rest, hl, fun k hk => ?_⟩
  have asc := allHandles_pairwise
  rw [hl, List.pairwise_append] at asc
  rcases hlow k (asc.2.2 k hk h List.mem_cons_self) with hk | ⟨e, he, hk⟩
  · simp [hk]
  · have : (s.draft p).names k = true := List.any_eq_true.2 ⟨e, he, by simp [hk]⟩
    simp [this]

/-- A draft that can take an entry (Table 3-4, checks 2 and 3). -/
theorem closedTo_eq_none {d : Draft} (hs : d.state = .empty ∨ d.state = .opened) (hn : d.entries.length < 8) :
    d.closedTo = none := by
  have h8 : ¬ Config.draftSize ≤ d.entries.length := by unfold Config.draftSize; omega
  rcases hs with hs | hs <;> simp [Draft.closedTo, hs, h8]

/-- R45: the endpoints of a stream are all READY when each position named but 0 is. -/
theorem no_endpoint_unready {s : State} {source : Nat} {sinks : List Nat}
    (h : ∀ q ∈ source :: sinks, q ≠ 0 → (s.entry q).state = .ready) :
    ((endpointsOf source sinks).any fun q => !s.chain.isReady q) = false := by
  refine List.any_eq_false.2 fun q hq => ?_
  obtain ⟨hmem, hne⟩ := List.mem_filter.1 hq
  have := h q hmem (by simpa using hne)
  simp only [State.entry] at this
  simp [ChainManager.isReady, this]

/-- Settles O18: every check of R45 passes, and the handle allocated is the lowest one left. -/
theorem draftOpenStagesStream : Obligations.DraftOpenStagesStream := by
  unfold Obligations.DraftOpenStagesStream
  intro p a h s hs hsource hone hfour hsinks hnodup hself hlanes hlanes' hd hn hr hfree hname hlow
  have ho : openOf a = some (a.source.toNat, sinksGiven a, a.lanes.toNat) :=
    if_pos ⟨hsource, hone, hfour, hsinks, hnodup, hself, hlanes, hlanes'⟩
  refine requestThen_accepted false p a (State.takeDraftOpen p) id s _ _ hs ?_ rfl
  simp only [State.takeDraftOpen, ho, closedTo_eq_none hd hn, no_endpoint_unready hr, allocatable_eq_some hfree hname hlow,
    Bool.false_eq_true, if_false]
  rfl

/-! The reset values -/

theorem chainReset_entry (q : Nat) : ChainManager.reset.entry q = ChainEntry.reset := by
  unfold ChainManager.entry
  split
  · exact Tab.get_fill _ _ _
  · rfl

/-- Settles O3: the head after DEVICE_RESET is `State.reset` but for the reset line and the waiting commands. -/
theorem deviceResetLeaves : Obligations.DeviceResetLeaves := by
  unfold Obligations.DeviceResetLeaves
  intro s
  refine ⟨_, rfl, fun h => Tab.get_fill _ _ h, fun p => Tab.get_fill _ _ p, rfl, rfl, chainReset_entry, rfl, rfl, rfl, rfl,
    rfl, rfl, rfl, rfl, rfl, rfl, rfl, rfl, rfl, rfl, rfl, fun p => ?_, fun p => ?_, fun p => Tab.get_fill _ _ p, rfl, rfl⟩
  · rw [show State.port { State.reset with resetHigh := false, pending := s.pending } p = PortContext.reset from
      Tab.get_fill _ _ p]
    exact ⟨rfl, rfl, rfl, rfl, rfl, rfl, rfl⟩
  · rw [show State.routerPort { State.reset with resetHigh := false, pending := s.pending } p = RouterPort.reset from
      Tab.get_fill _ _ p]
    exact ⟨rfl, rfl, rfl, rfl, fun q => Tab.get_fill _ _ q⟩

/-! The laws at reset -/

theorem reset_port (p : Port) : State.reset.port p = PortContext.reset := Tab.get_fill _ _ p

theorem reset_routerPort (p : Port) : State.reset.routerPort p = RouterPort.reset := Tab.get_fill _ _ p

theorem reset_draft (p : Port) : State.reset.draft p = Draft.empty := Tab.get_fill _ _ p

theorem chainReset_endM : ChainManager.reset.endM = 0 :=
  ChainManager.endM_eq_iff _ fun p => by
    rw [chainReset_entry]
    have : ChainEntry.reset.enrolled = false := rfl
    simp only [this, Bool.false_eq_true, false_iff]
    omega

theorem reset_chainLaw : State.reset.chainLaw := by
  refine ⟨fun p h1 h2 => ?_, fun h => (nomatch h), fun _ => chainReset_endM, fun r hr => (nomatch hr)⟩
  have : p ≤ 0 := chainReset_endM ▸ h2
  omega

/-- Settles O53, law by law. -/
theorem resetMeetsLaws : Obligations.ResetMeetsLaws := by
  refine ⟨fun p => ?_, fun p => ?_, reset_streamLaw, ⟨?_, fun p => ?_, ?_⟩, ⟨⟨?_, ?_⟩, ?_⟩, reset_chainLaw, fun p => ?_,
    fun p => ?_⟩
  · rw [reset_routerPort]; exact ⟨Nat.zero_le _, Nat.zero_le _, Nat.zero_le _⟩
  · rw [reset_routerPort, State.attached, reset_port]; exact ⟨rfl, fun _ => rfl⟩
  · exact List.nodup_nil
  · rw [reset_draft]; exact ⟨fun h => (nomatch h), fun h => (nomatch h)⟩
  · exact fun h => h.elim (fun h => (nomatch h)) fun h => (nomatch h)
  · exact fun e he => (nomatch he)
  · exact List.Pairwise.nil
  · exact fun b hb => (nomatch hb)
  · rw [show State.reset.entry p = ChainEntry.reset from chainReset_entry p]
    exact ⟨Nat.zero_le _, rfl⟩
  · rw [State.remoteHeld, show State.reset.remoteQueue p = [] from Tab.get_fill _ _ p]
    exact Nat.zero_le _

end Sys2Proof.Machine


/-! ### The accepted restart (R18, R121, R122) -/

namespace Sys2Proof.Machine

/-- R148: what an accepted restart makes of the Remote Access Unit, the notices of the failed requests apart. -/
theorem restartRemote_router (s : State) :
    RouterFrame (s.setRemote { queues := Tab.fill 4 [], outstanding := none }) s.restartRemote := by
  unfold State.restartRemote
  exact .foldl (fun t p => .foldl (failRemote_frame p _) (s.restartFails p) t) allPorts _

/-- The record of the requester's stream, and of any other, after the restart (R18). -/
theorem stream_restartStream (p : Port) (s : State) (h k : Handle) :
    (s.restartStream p h).stream k =
      if k = h then
        if (s.stream h).state ≠ .free ∧ (s.stream h).belongsTo p (s.ports.get p).session = true then Stream.free
        else s.stream h
      else s.stream k := by
  unfold State.restartStream State.owns State.port
  split
  · have f := notifyOwner?_frame (s.freeStream h) (s.stream h) ((s.stream h).restartNotice h)
    rw [State.stream, f.streams]
    exact State.stream_setStream s h k _
  · split
    · next e => rw [e]
    · rfl

/-- R18, R121: when every non-FREE stream belongs to the requester, the restart leaves none. -/
theorem restartStreams_free {p : Port} {s : State}
    (howns : ∀ h, (s.stream h).state ≠ .free → (s.stream h).belongsTo p (s.port p).session = true) (h : Handle) :
    ((allHandles.foldl (State.restartStream p) s).stream h).state = .free := by
  rw [stream_foldl_each (inv := State.ports)
    (g := fun c _ r => if r.state ≠ .free ∧ r.belongsTo p (c.get p).session = true then Stream.free else r)
    (fun s h => (restartStream_frame p s h).ports) (stream_restartStream p) allHandles allHandles_nodup s h,
    if_pos (mem_allHandles h)]
  split
  · rfl
  · next hn =>
    by_contra hfree
    exact hn ⟨hfree, howns h hfree⟩

/-- R18, R64, R103, R105, R148, R152: an accepted restart, the notices and the event it raises apart. -/
theorem restartChain_router (p : Port) (s : State) :
    RouterFrame ((((((allHandles.foldl (State.restartStream p) s).setDraft p Draft.empty).setSwitch s.switch.restarted).setChain
      ChainManager.restarted).enablePort.setRemote { queues := Tab.fill 4 [], outstanding := none }).setFetch
      { s.fetch with wanted := [] }) (s.restartChain p) := by
  have f1 : StreamFrame s (allHandles.foldl (State.restartStream p) s) := .foldl (restartStream_frame p) _ _
  unfold State.restartChain
  dsimp only
  generalize allHandles.foldl (State.restartStream p) s = u at f1 ⊢
  rw [State.setDraft_switch, f1.switch]
  generalize hw : (((u.setDraft p Draft.empty).setSwitch s.switch.restarted).setChain ChainManager.restarted).enablePort = w
  have f2 := restartRemote_router w
  have hfetch : w.restartRemote.fetch = s.fetch := by rw [f2.fetch, ← f1.fetch, ← hw]; rfl
  rw [hfetch]
  refine RouterFrame.trans ?_ (raise_frame _ _)
  exact ⟨⟨⟨⟨⟨⟨f2.resetHigh, f2.ports, f2.cycle, f2.arbiter, f2.pending⟩, f2.remote⟩, f2.commits, rfl⟩, f2.drafts, f2.switch⟩,
    f2.chain⟩, f2.streams⟩

theorem belongsTo_iff (r : Stream) (p : Port) (k : Nat) : r.belongsTo p k = true ↔ r.owner = some (p, k) ∧ r.orphan = false := by
  simp [Stream.belongsTo]

/-- R121 check 2. -/
theorem inUse_iff (s : State) (p : Port) :
    s.inUse p = true ↔ ∃ h, (s.stream h).state ≠ .free ∧ (s.stream h).belongsTo p (s.port p).session = false := by
  simp [State.inUse, State.owns, mem_allHandles]

theorem chainRestarted_entry (q : Nat) : ChainManager.restarted.entry q = ChainEntry.reset := chainReset_entry q

/-- Settles O45: the two refusals, and the restart field by field. -/
theorem chainRestartGivesUpPlan : Obligations.ChainRestartGivesUpPlan := by
  unfold Obligations.ChainRestartGivesUpPlan
  intro p s hs
  refine ⟨fun hbusy => ?_, fun h hidle hnone hfree hother => ?_, fun hidle hnone howns => ?_⟩
  · exact requestThen_refused false p () (State.takeChainRestart p) id s _ hs (if_pos hbusy) rfl
  · have hb : ¬((s.stream h).belongsTo p (s.port p).session = true) := by
      rw [belongsTo_iff]
      rintro ⟨ho, hn⟩
      rcases hother with h1 | h1
      · exact h1 ho
      · rw [hn] at h1; cases h1
    have hu : s.inUse p = true := (inUse_iff s p).2 ⟨h, hfree, Bool.not_eq_true _ ▸ hb⟩
    refine requestThen_refused false p () (State.takeChainRestart p) id s _ hs ?_ rfl
    simp [State.takeChainRestart, hidle, hnone, hu]
  · have howns' : ∀ h, (s.stream h).state ≠ .free → (s.stream h).belongsTo p (s.port p).session = true :=
      fun h hf => (belongsTo_iff _ _ _).2 (howns h hf)
    have hu : s.inUse p = false := by
      rw [← Bool.not_eq_true, inUse_iff]
      rintro ⟨h, hf, hb⟩
      rw [howns' h hf] at hb
      cases hb
    have e := requestThen_accepted false p () (State.takeChainRestart p) id s (s.restartChain p) (reply .ok) hs
      (by simp [State.takeChainRestart, hidle, hnone, hu]) rfl
    have f1 : StreamFrame s (allHandles.foldl (State.restartStream p) s) := .foldl (restartStream_frame p) _ _
    have hfree := restartStreams_free howns'
    have f := restartChain_router p s
    have f2 := restartChain_frame p s
    generalize s.restartChain p = v at e f f2
    generalize allHandles.foldl (State.restartStream p) s = u at f f1 hfree
    have port (q : Port) : v.port q = s.port q := by rw [State.port, f2.ports]; rfl
    have draft (q : Port) : v.draft q = if q = p then Draft.empty else s.draft q := by
      rw [State.draft, f.drafts]
      refine (State.draft_setDraft u p q _).trans ?_
      rw [State.draft, f1.drafts]
      rfl
    refine ⟨_, e, fun h => ?_, ?_, fun q hq => ?_, f.switch, ?_, fun q => ?_, ?_, fun q => ?_, ?_, f.fetch, ?_, ?_, ?_, ?_,
      fun q hq => ?_⟩
    · show (v.streams.get h).state = .free
      rw [f.streams]
      exact hfree h
    · exact (draft p).trans (if_pos rfl)
    · exact (draft q).trans (if_neg hq)
    · exact congrArg ChainManager.state f.chain
    · exact (congrArg (fun c : ChainManager => c.entry q) f.chain).trans (chainRestarted_entry q)
    · exact congrArg ChainManager.bringUp f.chain
    · show v.remote.queues.get q = []
      rw [f.remote]
      exact Tab.get_fill _ _ q
    · exact congrArg RemoteUnit.outstanding f.remote
    · exact f2.cycle
    · exact f2.arbiter
    · exact (f.commits.trans f1.commits).trans hnone
    · exact (State.port_setPort_same _ p _).trans (by rw [port]; rfl)
    · exact (State.port_setPort _ p q _).trans (by rw [if_neg hq, port])

/-! ### The switch cycle (R6 to R9, R75, R76) -/

/-- R63: ending drafts changes drafts only. -/
theorem endDrafts_only (l : List (Port × Nat)) (s : State) :
    l.foldl State.endDraft s = { s with drafts := (l.foldl State.endDraft s).drafts } :=
  foldl_frame (R := fun s t : State => t = { s with drafts := t.drafts }) (fun _ => rfl) (fun a b => by rw [b, a])
    (fun _ _ => rfl) l s

theorem draft_endDrafts (l : List (Port × Nat)) (s : State) (p : Port) :
    (l.foldl State.endDraft s).draft p = if p ∈ l.map Prod.fst then Draft.empty else s.draft p := by
  induction l generalizing s with
  | nil => simp
  | cons c l ih =>
    rw [List.foldl_cons, ih, State.endDraft, State.draft_setDraft, List.map_cons]
    by_cases h1 : p ∈ l.map Prod.fst <;> by_cases h2 : p = c.1 <;> simp [h1, h2]

/-- R75, R76: the switch cycle before its notices, register group by register group. -/
theorem switchChanges_eq (b : Batch) (s : State) :
    s.switchChanges b = { s with
      switch := { s.switch with epoch := s.switch.epoch + 1, plan := b.nextPlan, settings := b.nextSettings, phase := .settle
                                countdown := 0, settle := 8 }
      streams := Tab.ofFn fun h => (s.stream h).atSwitch b.nextPlan h (s.switch.epoch + 1)
      fetch := { s.fetch with
        wanted := if b.nextSettings.eventFetch = s.switch.settings.eventFetch then s.fetch.wanted else [] }
      drafts := (s.switchChanges b).drafts } := by
  unfold State.switchChanges
  dsimp only
  rw [takeSettings_eq, endDrafts_only]
  rfl

theorem draft_switchChanges (b : Batch) (s : State) (p : Port) :
    (s.switchChanges b).draft p = if p ∈ b.commits.map Prod.fst then Draft.empty else s.draft p := by
  unfold State.switchChanges
  rw [draft_endDrafts, takeSettings_eq]
  rfl

/-- R75: the row SWITCH_CYCLE is due when the countdown has run down and a batch is in flight. -/
theorem switchReady_iff (s : State) :
    s.switchReady = true ↔ s.switch.phase = .countdown ∧ s.switch.countdown = 0 ∧ ∃ b, s.switch.batch = some b := by
  simp [State.switchReady, State.switchDue, Option.isSome_iff_exists, and_assoc]

/-- R75 to R77: the switch cycle, its notices and event apart. -/
theorem switchCycle_router {s : State} {b : Batch} (h1 : s.switch.phase = .countdown) (h2 : s.switch.countdown = 0)
    (hb : s.switch.batch = some b) : RouterFrame (s.switchChanges b) s.switchCycle := by
  have due : s.switchDue = true := by simp [State.switchDue, h1, h2]
  simp only [State.switchCycle, hb, due, if_true]
  exact switchResults_frame s b _

/-- R8: a SWITCHING_OUT stream. -/
theorem atSwitch_switchingOut {r : Stream} (hr : r.state = .switchingOut) (w : Plan) (h : Handle) (e : Epoch) :
    r.atSwitch w h e = Stream.free := by
  simp [Stream.atSwitch, hr]

/-- R6: a SWITCHING_IN stream. -/
theorem atSwitch_switchingIn {r : Stream} (hr : r.state = .switchingIn) (w : Plan) (h : Handle) (e : Epoch) :
    r.atSwitch w h e = { r with
      state := if r.causes.isEmpty then .live else .suspended
      down := (placementOf w h).1, up := (placementOf w h).2, placedEpoch := e, change := .none
      mark := if r.orphan = true ∧ r.mark = .none then .released else r.mark } := by
  simp only [Stream.atSwitch, hr, Stream.placed]
  rw [Stream.orphanMarked_fields, Stream.orphanMarked_mark]
  cases r.causes.isEmpty <;> simp

/-- R7: a stream with a RESIZE. -/
theorem atSwitch_resized {r : Stream} (hr : r.state = .live ∨ r.state = .suspended) {n : Nat} (hc : r.change = .resize n)
    (w : Plan) (h : Handle) (e : Epoch) :
    r.atSwitch w h e = { r with
      lanes := n, down := (placementOf w h).1, up := (placementOf w h).2, placedEpoch := e, change := .none } := by
  rcases hr with hr | hr <;> simp only [Stream.atSwitch, hr, hc, Stream.placed]

/-- R9: a stream in the plan without a RESIZE: moved, or as it was. -/
theorem atSwitch_moved {r : Stream} (hr : r.state = .live ∨ r.state = .suspended) (hc : ∀ n, r.change ≠ .resize n)
    (w : Plan) (h : Handle) (e : Epoch) :
    r.atSwitch w h e =
      if (r.down, r.up) = placementOf w h then r
      else { r with down := (placementOf w h).1, up := (placementOf w h).2, placedEpoch := e } := by
  have moved : r.movedBy w h = !decide ((r.down, r.up) = placementOf w h) := by
    rcases hr with hr | hr <;> simp [Stream.movedBy, hr, bne, Bool.beq_eq_decide_eq]
  have unresized : r.atSwitch w h e = if r.movedBy w h then r.placed w h e else r := by
    unfold Stream.atSwitch
    rcases hr with hr | hr <;> rw [hr] <;> dsimp only <;> split
    · next n hn => exact absurd hn (hc n)
    · rfl
    · next n hn => exact absurd hn (hc n)
    · rfl
  rw [unresized, moved]
  by_cases hp : (r.down, r.up) = placementOf w h <;> simp [hp, Stream.placed]

theorem atSwitch_untouched {r : Stream} (hr : r.state = .staged ∨ r.state = .free) (w : Plan) (h : Handle) (e : Epoch) :
    r.atSwitch w h e = r := by
  rcases hr with hr | hr <;> simp [Stream.atSwitch, hr]

/-- Settles O42: the row makes the switch cycle at the cycle start it begins, or nothing. -/
theorem switchCycleMakesPlanActive : Obligations.SwitchCycleMakesPlanActive := by
  unfold Obligations.SwitchCycleMakesPlanActive
  rintro s u hs rfl
  have exec_eq : exec .switchCycle s = .next (s.actAlone State.switchReady .switch State.switchCycle) :=
    congrArg Host.Outcome.next (if_pos hs)
  have cases_ := actAlone_cases State.switchReady .switch State.switchCycle s
  rw [exec_eq]
  generalize s.openCycle = u at *
  refine ⟨fun b h1 h2 hb hm => ?_, fun hnot => ?_⟩
  · have ready : u.switchReady = true := (switchReady_iff u).2 ⟨h1, h2, b, hb⟩
    obtain ⟨-, -, e⟩ | ⟨h, -⟩ := cases_
    swap
    · rw [ready, hm] at h
      rcases h with h | h <;> cases h
    have f := switchCycle_router h1 h2 hb
    have streams (h : Handle) :
        (u.switchCycle).stream h = (u.stream h).atSwitch b.nextPlan h (u.switch.epoch + 1) := by
      rw [State.stream, f.streams]; exact stream_switchChanges b u h
    have draft (p : Port) : u.switchCycle.draft p = if p ∈ b.commits.map Prod.fst then Draft.empty else u.draft p := by
      rw [State.draft, f.drafts]; exact draft_switchChanges b u p
    have g := (switchChanges_frame b u).trans f.toFormFrame
    rw [e, noteAct_eq, g.cycle]
    refine ⟨_, rfl, ?_, fun x hx => ?_, fun p hp => ?_, fun h hr => ?_, fun h hr => ?_, fun h hr => ⟨fun n hn => ?_, fun hn => ?_⟩,
      fun h hr => ?_, ?_, rfl, ?_, ?_, g.ports, g.remote, g.arbiter⟩
    · rw [State.setCycle_switch, f.switch, switchChanges_eq]
      dsimp only
      rw [h2]
    · exact (draft x.1).trans (if_pos (List.mem_map_of_mem hx))
    · exact (draft p).trans (if_neg fun hm => let ⟨x, hx, e⟩ := List.mem_map.1 hm; hp x hx e)
    · exact (streams h).trans (atSwitch_switchingOut hr _ _ _)
    · exact (streams h).trans (atSwitch_switchingIn hr _ _ _)
    · exact (streams h).trans (atSwitch_resized hr hn _ _ _)
    · exact (streams h).trans (atSwitch_moved hr hn _ _ _)
    · exact (streams h).trans (atSwitch_untouched hr _ _ _)
    · rw [State.setCycle_fetch, f.fetch, switchChanges_eq]
    · rw [State.setCycle_commits, f.commits, switchChanges_eq]
    · rw [State.setCycle_chain, f.chain, switchChanges_eq]
  · obtain ⟨ready, hm, -⟩ | ⟨-, e⟩ := cases_
    · obtain ⟨h1, h2, b, hb⟩ := (switchReady_iff u).1 ready
      rcases hnot with h | h | h | h
      · exact absurd h1 h
      · exact absurd h2 h
      · rw [hb] at h; cases h
      · rw [hm] at h; cases h
    · rw [e]

end Sys2Proof.Machine


/-! ### The abandonment of a switch (R10, R62, R63, R80) -/

namespace Sys2Proof.Machine

/-! Stale marks (R115) -/

/-- What setting or removing a stale mark makes of every entry. -/
theorem entry_setStale (b : Bool) (s : State) (p q : Nat) :
    (s.setStale b p).entry q = if q = p ∧ 1 ≤ p ∧ p ≤ 15 then { s.entry q with stale := b } else s.entry q := by
  unfold State.setStale
  split
  · next h =>
    split
    · next hq => rw [hq.1, ← h]
    · rfl
  · rw [State.entry, (recompute_frame _).chain]
    refine (State.entry_setEntry s p q _).trans ?_
    split
    · next hq => rw [hq.1]
    · rfl

theorem entry_setStales (b : Bool) (ps : List Nat) (s : State) (q : Nat) :
    (ps.foldl (State.setStale b) s).entry q =
      if q ∈ ps ∧ 1 ≤ q ∧ q ≤ 15 then { s.entry q with stale := b } else s.entry q := by
  induction ps generalizing s with
  | nil => simp
  | cons p ps ih =>
    rw [List.foldl_cons, ih, entry_setStale]
    by_cases hq : 1 ≤ q ∧ q ≤ 15 <;> by_cases h1 : q = p <;> by_cases h2 : q ∈ ps <;> simp_all

/-! The Switch Engine and the chain -/

/-- The Switch Engine and the chain do not differ. -/
structure EnginesKept (s t : State) : Prop where
  switch : t.switch = s.switch
  chain : t.chain = s.chain

namespace EnginesKept

theorem refl (s : State) : EnginesKept s s := ⟨rfl, rfl⟩

theorem trans {s t u : State} (a : EnginesKept s t) (b : EnginesKept t u) : EnginesKept s u :=
  ⟨b.switch.trans a.switch, b.chain.trans a.chain⟩

theorem foldl {β : Type} {f : State → β → State} (h : ∀ s x, EnginesKept s (f s x)) (l : List β) (s : State) :
    EnginesKept s (l.foldl f s) := foldl_frame .refl .trans h l s

theorem of_frame {s t : State} (f : StreamFrame s t) : EnginesKept s t := ⟨f.switch, f.chain⟩

theorem discardDraft (s : State) (p : Port) : EnginesKept s (s.discardDraft p) :=
  (of_frame (freeOpened_frame s _)).trans ⟨rfl, rfl⟩

end EnginesKept

/-! Drafts that return or are discarded (R63) -/

theorem stream_freeStreams (l : List Handle) (s : State) (h : Handle) :
    (l.foldl State.freeStream s).stream h = if h ∈ l then Stream.free else s.stream h := by
  induction l generalizing s with
  | nil => simp
  | cons k l ih =>
    rw [List.foldl_cons, ih, State.freeStream, State.stream_setStream]
    by_cases h1 : h ∈ l <;> by_cases h2 : h = k <;> simp [h1, h2]

/-- Whether an OPEN entry of a draft names a handle. -/
def Draft.opens (d : Draft) (h : Handle) : Prop := ∃ e ∈ d.entries, e.opens? = some h

/-- The draft of an accepted commit after an abandonment. -/
def Draft.returned (d : Draft) : Draft := if d.ended then Draft.empty else { d with state := .opened, flags := none }

theorem stream_freeOpened_of_opens {s : State} {d : Draft} {h : Handle} (hd : d.opens h) :
    (s.freeOpened d.entries).stream h = Stream.free := by
  rw [State.freeOpened, stream_freeStreams, if_pos (List.mem_filterMap.2 hd)]

theorem stream_freeOpened_of_not_opens {s : State} {d : Draft} {h : Handle} (hd : ¬d.opens h) :
    (s.freeOpened d.entries).stream h = s.stream h := by
  rw [State.freeOpened, stream_freeStreams, if_neg fun hm => hd (List.mem_filterMap.1 hm)]

theorem draft_returnDraft (s : State) (c : Port × Nat) (p : Port) :
    (s.returnDraft c).draft p = if p = c.1 then (s.draft p).returned else s.draft p := by
  unfold State.returnDraft Draft.returned
  split
  · next he =>
    rw [State.discardDraft, State.draft_setDraft, State.draft, (freeOpened_frame s _).drafts]
    split
    · next e => rw [e, if_pos he]
    · rfl
  · next he =>
    rw [State.draft_setDraft]
    split
    · next e => rw [e, if_neg he]
    · rfl

theorem stream_returnDraft_of_discarded {s : State} {c : Port × Nat} {h : Handle} (he : (s.draft c.1).ended = true)
    (ho : (s.draft c.1).opens h) : (s.returnDraft c).stream h = Stream.free := by
  rw [State.returnDraft, if_pos he, State.discardDraft, State.stream_setDraft, stream_freeOpened_of_opens ho]

theorem stream_returnDraft_of_kept {s : State} {c : Port × Nat} {h : Handle}
    (hk : ¬((s.draft c.1).ended = true ∧ (s.draft c.1).opens h)) : (s.returnDraft c).stream h = s.stream h := by
  unfold State.returnDraft
  split
  · next he =>
    rw [State.discardDraft, State.stream_setDraft, stream_freeOpened_of_not_opens fun ho => hk ⟨he, ho⟩]
  · rfl

theorem returnDraft_engines (s : State) (c : Port × Nat) : EnginesKept s (s.returnDraft c) := by
  unfold State.returnDraft
  split
  · exact .discardDraft s c.1
  · exact ⟨rfl, rfl⟩

theorem returnDrafts_engines (l : List (Port × Nat)) (s : State) : EnginesKept s (l.foldl State.returnDraft s) :=
  .foldl returnDraft_engines l s

theorem draft_returnDrafts {l : List (Port × Nat)} (hl : (l.map Prod.fst).Nodup) (s : State) (p : Port) :
    (l.foldl State.returnDraft s).draft p = if p ∈ l.map Prod.fst then (s.draft p).returned else s.draft p := by
  induction l generalizing s with
  | nil => simp
  | cons c l ih =>
    obtain ⟨hnot, hl'⟩ := List.nodup_cons.1 hl
    rw [List.foldl_cons, ih hl', draft_returnDraft, List.map_cons]
    by_cases hp : p = c.1
    · subst hp; simp [hnot]
    · simp only [hp, if_false, List.mem_cons, false_or]

/-- The streams of the OPEN entries of the drafts that are discarded are FREE, and no other stream changes. -/
theorem stream_returnDrafts {l : List (Port × Nat)} (hl : (l.map Prod.fst).Nodup) (s : State) (h : Handle) :
    ((∃ x ∈ l, (s.draft x.1).ended = true ∧ (s.draft x.1).opens h) → (l.foldl State.returnDraft s).stream h = Stream.free)
      ∧ ((¬∃ x ∈ l, (s.draft x.1).ended = true ∧ (s.draft x.1).opens h) →
          (l.foldl State.returnDraft s).stream h = s.stream h) := by
  induction l generalizing s with
  | nil => simp
  | cons c l ih =>
    obtain ⟨hnot, hl'⟩ := List.nodup_cons.1 hl
    have same (x) (hx : x ∈ l) : (s.returnDraft c).draft x.1 = s.draft x.1 := by
      rw [draft_returnDraft, if_neg fun e : x.1 = c.1 => hnot (e ▸ List.mem_map_of_mem hx)]
    have later : (∃ x ∈ l, ((s.returnDraft c).draft x.1).ended = true ∧ ((s.returnDraft c).draft x.1).opens h)
        ↔ ∃ x ∈ l, (s.draft x.1).ended = true ∧ (s.draft x.1).opens h :=
      exists_congr fun x => and_congr_right fun hx => by rw [same x hx]
    obtain ⟨ih1, ih2⟩ := ih hl' (s.returnDraft c)
    rw [later] at ih1 ih2
    rw [List.foldl_cons]
    simp only [List.exists_mem_cons_iff, not_or]
    by_cases hr : ∃ x ∈ l, (s.draft x.1).ended = true ∧ (s.draft x.1).opens h
    · exact ⟨fun _ => ih1 hr, fun hn => absurd hr hn.2⟩
    · refine ⟨fun hc => ?_, fun hn => (ih2 hr).trans (stream_returnDraft_of_kept hn.1)⟩
      obtain ⟨he, ho⟩ := hc.resolve_right hr
      exact (ih2 hr).trans (stream_returnDraft_of_discarded he ho)

theorem discards_iff (s : State) (b : Batch) (h : Handle) :
    s.discards b h = true ↔ ∃ x ∈ b.commits, (s.draft x.1).ended = true ∧ (s.draft x.1).opens h := by
  simp only [State.discards, Draft.opens, List.any_eq_true, Bool.and_eq_true, beq_iff_eq]

/-! The record of a stream after an abandonment (R10) -/

/-- A record that is neither LIVE nor SUSPENDED takes causes and nothing else. -/
theorem Stream.Recaused.still {r r' : Stream} (a : r.Recaused r') (h1 : r.state ≠ .live) (h2 : r.state ≠ .suspended) :
    r' = { r with causes := r'.causes } := by
  have hs : r'.state = r.state := a.state.resolve_right fun h => h.1.elim h1 h2
  have hm : r'.mark = r.mark := a.mark.resolve_right fun h => h.2.2.1.elim h1 h2
  rw [a.fields, hs, hm]

/-- A LIVE or SUSPENDED record stays one of the two. -/
theorem Stream.Recaused.running {r r' : Stream} (a : r.Recaused r') (h : r.state = .live ∨ r.state = .suspended) :
    r'.state = .live ∨ r'.state = .suspended := by
  rcases a.state with e | e
  · rwa [e]
  · exact e.2

/-- R13: only an orphan without a mark takes one. -/
theorem Stream.Recaused.same_mark {r r' : Stream} (a : r.Recaused r') (h : ¬(r.orphan = true ∧ r.mark = .none)) :
    r'.mark = r.mark :=
  a.mark.resolve_right fun e => h ⟨e.1, e.2.1⟩

/-- R16: the state of a lawful LIVE or SUSPENDED record. -/
theorem Stream.lawful.state_eq {r : Stream} (a : r.lawful) (h : r.state = .live ∨ r.state = .suspended) :
    r.state = if r.causes.isEmpty then .live else .suspended := by
  rcases h with h | h
  · rw [h, a.1 h]; rfl
  · rw [h, a.2 h]; rfl

/-- R13: the mark of an orphan that is LIVE or SUSPENDED is never none. -/
def ReleaseMark.forOrphan (orphan : Bool) (m : ReleaseMark) : ReleaseMark :=
  if orphan = true ∧ m = .none then .released else m

theorem ReleaseMark.forOrphan_ne_none (o : Bool) (m : ReleaseMark) : ¬(o = true ∧ m.forOrphan o = .none) := by
  unfold ReleaseMark.forOrphan
  rintro ⟨ho, h⟩
  split at h
  · cases h
  · next hn => exact hn ⟨ho, h⟩

theorem Stream.orphanMarked_eq {r : Stream} (h : r.state = .live ∨ r.state = .suspended) :
    r.orphanMarked = { r with mark := r.mark.forOrphan r.orphan } := by
  rw [r.orphanMarked_fields, r.orphanMarked_mark]
  simp only [h, true_and]
  rfl

theorem restored_untouched {r : Stream} (h : r.state = .free ∨ r.state = .staged) : r.restored = r := by
  rcases h with h | h <;> simp [Stream.restored, h]

theorem restored_switchingIn {r : Stream} (h : r.state = .switchingIn) :
    r.restored = { r with state := .staged, down := none, up := none, change := .none, mark := .none } := by
  simp [Stream.restored, h]

theorem restored_switchingOut {r : Stream} (h : r.state = .switchingOut) :
    r.restored = { r with
      state := if r.causes.isEmpty then .live else .suspended, change := .none
      mark := (r.change.mark.max r.mark).forOrphan r.orphan } := by
  simp only [Stream.restored, h]
  rw [Stream.orphanMarked_eq]
  cases r.causes.isEmpty
  · exact .inr rfl
  · exact .inl rfl

theorem restored_resized {r : Stream} (h : r.state = .live ∨ r.state = .suspended) {n : Nat} (hc : r.change = .resize n) :
    r.restored = { r with change := .none, mark := r.mark.forOrphan r.orphan } := by
  have e : r.restored = { r with change := .none : Stream }.orphanMarked := by
    rcases h with h | h <;> simp only [Stream.restored, h, hc]
  rw [e, Stream.orphanMarked_eq]
  exact h

theorem restored_unresized {r : Stream} (h : r.state = .live ∨ r.state = .suspended) (hc : ∀ n, r.change ≠ .resize n) :
    r.restored = r := by
  unfold Stream.restored
  rcases h with h | h <;> rw [h] <;> dsimp only <;> split
  · next n hn => exact absurd hn (hc n)
  · rfl
  · next n hn => exact absurd hn (hc n)
  · rfl

/-- A SWITCHING_OUT stream that is restored: LIVE or SUSPENDED by its causes, never an orphan without a mark. -/
theorem recaused_switchingOut {r r' : Stream} (h : r.state = .switchingOut) (a : r.restored.Recaused r') :
    r' = { r with
      state := if r'.causes.isEmpty then .live else .suspended, change := .none, causes := r'.causes
      mark := (r.change.mark.max r.mark).forOrphan r.orphan } := by
  have hrun : r.restored.state = .live ∨ r.restored.state = .suspended := by
    rw [restored_switchingOut h]
    cases r.causes.isEmpty
    · exact .inr rfl
    · exact .inl rfl
  have hlaw : r.restored.lawful := Stream.restored_lawful (Stream.lawful_of_other (by simp [h]) (by simp [h]))
  have hstate := (a.lawful hlaw).state_eq (a.running hrun)
  have hmark : r'.mark = (r.change.mark.max r.mark).forOrphan r.orphan := by
    rw [restored_switchingOut h] at a
    exact a.same_mark (ReleaseMark.forOrphan_ne_none _ _)
  have hfields := a.fields
  rw [hstate, hmark, restored_switchingOut h] at hfields
  exact hfields

theorem recaused_resized {r r' : Stream} (h : r.state = .live ∨ r.state = .suspended) {n : Nat} (hc : r.change = .resize n)
    (a : r.restored.Recaused r') :
    r' = { r with
      state := r'.state, change := .none, causes := r'.causes, mark := r.mark.forOrphan r.orphan } := by
  rw [restored_resized h hc] at a
  have hmark : r'.mark = r.mark.forOrphan r.orphan := a.same_mark (ReleaseMark.forOrphan_ne_none _ _)
  have hfields := a.fields
  rw [hmark] at hfields
  exact hfields

theorem restored_running {r : Stream} (h : r.state = .live ∨ r.state = .suspended) : r.restored.state = r.state := by
  by_cases hc : ∃ n, r.change = .resize n
  · obtain ⟨n, hn⟩ := hc
    rw [restored_resized h hn]
  · rw [restored_unresized h fun n hn => hc ⟨n, hn⟩]

theorem restored_causes (r : Stream) : r.restored.causes = r.causes := by
  unfold Stream.restored
  repeat' split
  all_goals simp

/-! The abandonment as a whole (R80) -/

section
variable {s : State} {b : Batch} (hb : s.switch.batch = some b) (w : AbandonReason)
include hb

/-- The notices apart, an abandonment undoes the batch. -/
theorem abandon_router : RouterFrame (s.undoBatch b) (s.abandon w) := by
  simp only [State.abandon, hb]
  exact .foldl (fun t c => notifyCommit_frame _ _ _ t) _ _

theorem abandon_switch : (s.abandon w).switch = s.switch.abandoned := by
  rw [(abandon_router hb w).switch]
  unfold State.undoBatch
  dsimp only
  rw [State.setSwitch_switch, (returnDrafts_engines _ _).switch, (unmarkStales_frame _ _).switch]

theorem entry_abandon (q : Nat) :
    (s.abandon w).entry q = if q ∈ b.stale then { s.entry q with stale := false } else s.entry q := by
  rw [State.entry, (abandon_router hb w).chain]
  unfold State.undoBatch
  dsimp only
  rw [State.setSwitch_chain, (returnDrafts_engines _ _).chain]
  refine (entry_setStales false b.stale _ q).trans ?_
  by_cases hq : 1 ≤ q ∧ q ≤ 15
  · simp only [hq, and_true]; rfl
  · have e : s.entry q = ChainEntry.reset := ChainManager.entry_out s.chain q hq
    simp only [hq, and_false, if_false, e]
    split <;> exact e

theorem draft_abandon (hn : (b.commits.map Prod.fst).Nodup) (p : Port) :
    (s.abandon w).draft p = if p ∈ b.commits.map Prod.fst then (s.draft p).returned else s.draft p := by
  rw [State.draft, (abandon_router hb w).drafts]
  unfold State.undoBatch
  refine (draft_returnDrafts hn _ p).trans ?_
  rw [State.draft, (unmarkStales_frame _ _).drafts]
  rfl

/-- A stream that no discarded draft opens: restored, then its causes as the removed stale marks leave them. -/
theorem stream_abandon_kept (hn : (b.commits.map Prod.fst).Nodup) {h : Handle} (hd : s.discards b h = false) :
    (s.stream h).restored.Recaused ((s.abandon w).stream h)
      ∧ (b.stale = [] → (s.abandon w).stream h = (s.stream h).restored) := by
  have e : (s.abandon w).stream h =
      (State.unmarkStales b.stale { s with streams := s.streams.map Stream.restored }).stream h := by
    rw [State.stream, (abandon_router hb w).streams]
    unfold State.undoBatch
    refine (stream_returnDrafts hn _ h).2 ?_
    rw [← Bool.not_eq_true, discards_iff] at hd
    simp only [State.draft, (unmarkStales_frame _ _).drafts]
    exact hd
  have start : State.stream { s with streams := s.streams.map Stream.restored } h = (s.stream h).restored := Tab.get_map _ _ h
  rw [e, ← start]
  exact ⟨setStales_recaused false b.stale _ h, fun h0 => by rw [h0]; rfl⟩

theorem stream_abandon_discarded (hn : (b.commits.map Prod.fst).Nodup) {h : Handle} (hd : s.discards b h = true) :
    (s.abandon w).stream h = Stream.free := by
  rw [State.stream, (abandon_router hb w).streams]
  unfold State.undoBatch
  refine (stream_returnDrafts hn _ h).1 ?_
  rw [discards_iff] at hd
  simp only [State.draft, (unmarkStales_frame _ _).drafts]
  exact hd

end

/-- R70. -/
theorem prepareExpired_iff (s : State) :
    s.prepareExpired = true ↔ s.switch.phase = .prepare ∧ s.switch.settings.prepareTimeout ≤ s.switch.progress := by
  simp [State.prepareExpired, SwitchEngine.timedOut]

theorem exec_prepareTimeout {s : State} (hs : s.resetHigh = true) (m : Meet) :
    exec (.prepareTimeout m) s = .next (if s.prepareExpired then (s.abandon .timeout).settleWork m else s) :=
  congrArg Host.Outcome.next (if_pos hs)

/-- Settles O43: the row under its condition, then the abandonment register group by register group. -/
theorem prepareTimeoutAbandons : Obligations.PrepareTimeoutAbandons := by
  unfold Obligations.PrepareTimeoutAbandons
  rintro s t m b hs hb hn rfl
  have f := abandon_frame .timeout s
  have draft := draft_abandon hb .timeout hn
  have ran {x} (hx : x ∈ b.commits) : (s.abandon .timeout).draft x.1 = (s.draft x.1).returned :=
    (draft x.1).trans (if_pos (List.mem_map_of_mem hx))
  have row := exec_prepareTimeout hs m
  refine ⟨fun h1 h2 => ?_, fun h => ?_, fun h => ?_, abandon_switch hb _, fun x hx he => ?_, fun x hx he => ?_, fun p hp => ?_,
    entry_abandon hb _, fun h => stream_abandon_discarded hb _ hn, fun h hd => ?_, f.commits, f.ports, f.cycle, f.remote,
    f.arbiter, f.fetch⟩
  · rw [row, if_pos ((prepareExpired_iff s).2 ⟨h1, h2⟩)]
  · rw [row, if_neg fun e => absurd ((prepareExpired_iff s).1 e).2 (by omega)]
  · rw [row, if_neg fun e => h ((prepareExpired_iff s).1 e).1]
  · rw [ran hx, Draft.returned, if_neg (by simp [he])]
  · rw [ran hx, Draft.returned, if_pos he]
  · refine (draft p).trans (if_neg fun hm => ?_)
    obtain ⟨x, hx, e⟩ := List.mem_map.1 hm
    exact hp x hx e
  · obtain ⟨a, unmarked⟩ := stream_abandon_kept hb .timeout hn hd
    refine ⟨fun h0 => ?_, fun h0 => ?_, fun h0 => ?_, fun h0 => recaused_switchingOut h0 a, fun h0 => ⟨?_, ?_, ?_⟩,
      fun hstale => ⟨?_, ?_, ?_⟩⟩
    · rw [restored_untouched (.inl h0)] at a
      exact a.free h0
    · rw [restored_untouched (.inr h0)] at a
      exact a.still (by simp [h0]) (by simp [h0])
    · rw [restored_switchingIn h0] at a
      exact a.still (by simp) (by simp)
    · exact a.running (by rwa [restored_running h0])
    · exact fun n hc => recaused_resized h0 hc a
    · intro hc
      rw [restored_unresized h0 hc] at a
      exact a.fields
    · rw [unmarked hstale, restored_causes]
    · exact fun h0 => by rw [unmarked hstale, restored_running (.inl h0), h0]
    · exact fun h0 => by rw [unmarked hstale, restored_running (.inr h0), h0]

end Sys2Proof.Machine


/-! ### The cycle start (R17, R66, R86, R87, R98, R100, R101) -/

namespace Sys2Proof.Machine

/-! The lead block is not made ahead of its CYCLE_START -/

theorem made_congr {c d : CycleEngine} (h : d.begun = c.begun) (a : CycleAct) : d.made a = c.made a := by
  unfold CycleEngine.made; rw [h]

/-- What a command makes of the note that the lead block is made. -/
def LeadKept (s t : State) : Prop := s.cycle.made .lead = false → t.cycle.made .lead = false

theorem LeadKept.refl (s : State) : LeadKept s s := id

theorem CycleFrame.leadKept {s t : State} (f : CycleFrame s t) : LeadKept s t := fun h => (made_congr f.begun _).trans h

/-- An act noted as made, the others as before. -/
theorem made_noteAct {a b : CycleAct} (h : b ≠ a) (s : State) : (s.noteAct a).cycle.made b = s.cycle.made b := by
  rw [noteAct_eq, State.setCycle_cycle]
  unfold CycleEngine.made
  cases s.cycle.begun with
  | none => rfl
  | some l => simp [h]

theorem actAlone_leadKept {due : State → Bool} {a : CycleAct} {act : State → State} (ha : .lead ≠ a)
    (h : ∀ s, CycleFrame s (act s)) (s : State) : LeadKept s (s.actAlone due a act) := fun hs => by
  obtain ⟨-, -, e⟩ | ⟨-, e⟩ := actAlone_cases due a act s
  · rw [e, made_noteAct ha, made_congr (h _).begun, openCycle_made]
    exact hs
  · rw [e]
    exact hs

theorem underGuard_leadKept {c : State → Bool} {f : State → State} (h : ∀ s, TrailFrame s (f s)) (s : State) :
    LeadKept s (s.underGuard c f) := by
  unfold State.underGuard
  split
  · exact (h s).toCycleFrame.leadKept
  · exact .refl s

theorem expireLease_cycleFrame (p : Port) (s : State) : CycleFrame s (s.expireLease p) :=
  (setPort_cycleFrame s p _).trans (expireLease_frame p s).toCycleFrame

theorem leaveJoining_frame (p : Nat) (s : State) : ChainFrame s (s.leaveJoining p) := by
  unfold State.leaveJoining
  split
  · exact (moveEntry_frame s p).trans (ensureResync_frame _)
  · exact moveEntry_frame s p

/-- A CYCLE_START ends the cycle start in progress. -/
theorem nextCycle_begun (m : Tab Sample 64) (o : List CycleAct) (s : State) : (s.nextCycle m o).cycle.begun = none := rfl

theorem exec_leadKept (c : Instr) {s t : State} (e : exec c s = .next t) : LeadKept s t := by
  have released {f : State → State} (h : ∀ s, LeadKept s (f s)) (e : s.whenReleased f = .next t) : LeadKept s t :=
    whenReleased_keeps .refl h e
  cases c
  case deviceReset => cases e; exact fun _ => rfl
  case resetRelease => cases e; exact id
  case cycleStart m o => exact released (fun s _ => made_of_none (nextCycle_begun m o s) _) e
  case trailArrival up o => exact released (fun s => (arrive_cycleFrame (some up) o s).leadKept) e
  case receiveWindowClose o => exact released (fun s => (arrive_cycleFrame none o s).leadKept) e
  case leaseExpiry p => exact released (actAlone_leadKept (by simp) (expireLease_cycleFrame p)) e
  case probeDue => exact released (actAlone_leadKept (by simp) fun s => (tickProbe_frame s).toCycleFrame) e
  case bringupSeek => exact released (actAlone_leadKept (by simp) grantSlot_cycleFrame) e
  case switchCycle => exact released (actAlone_leadKept (by simp) fun s => (switchCycle_frame s).toCycleFrame) e
  case batchFormation => exact released (fun s => (formIfDue_frame s).toCycleFrame.leadKept) e
  case isolationRecovery p =>
    exact released (underGuard_leadKept fun s => (recoverHop_frame p s).toTrailFrame.trans (settleWork_frame _ _).toTrailFrame) e
  case breakDetected m =>
    exact released (underGuard_leadKept fun s => (breakChain_frame s).trans (settleWork_frame m _).toTrailFrame) e
  case quietCountComplete p => exact released (underGuard_leadKept fun s => (leaveJoining_frame p s).toTrailFrame) e
  case resyncEntry =>
    exact released (underGuard_leadKept fun s => ((moveEntries_frame s).trans (ensureResync_frame _)).toTrailFrame) e
  case prepareTimeout m =>
    exact released (underGuard_leadKept fun s => (abandon_frame _ s).toTrailFrame.trans (settleWork_frame m _).toTrailFrame) e
  case settleEnd m =>
    exact released (underGuard_leadKept fun s => (settleEnd_frame s).toTrailFrame.trans (settleWork_frame m _).toTrailFrame) e
  all_goals exact fun h => (made_congr (exec_keeps_of_hostPort rfl e).begun _).trans h

/-! The acts before the lead block -/

/-- The gate, the mute set and the up lanes of the cycle before do not differ. -/
structure MediaKept (s t : State) : Prop where
  gate : t.cycle.gate = s.cycle.gate
  mute : t.cycle.mute = s.cycle.mute
  upLanes : t.cycle.upLanes = s.cycle.upLanes

theorem MediaKept.refl (s : State) : MediaKept s s := ⟨rfl, rfl, rfl⟩

theorem MediaKept.trans {s t u : State} (a : MediaKept s t) (b : MediaKept t u) : MediaKept s u :=
  ⟨b.gate.trans a.gate, b.mute.trans a.mute, b.upLanes.trans a.upLanes⟩

theorem MediaKept.of_cycle {s t : State} (e : t.cycle = s.cycle) : MediaKept s t := by
  constructor <;> rw [e]

theorem tickLease_cycle (p : Port) (s : State) : (s.tickLease p).cycle = s.cycle := by
  rcases tickLease_cases p s with ⟨h, -⟩ | ⟨n, -, -, -, h⟩ | ⟨h, -⟩ <;> rw [h]
  · exact (expireLease_frame p s).cycle
  · rfl

theorem fill_cycle (c : Option Client) (s : State) : (s.fill c).1.cycle = s.cycle := by
  unfold State.fill
  split
  · rfl
  · rfl
  · exact (sendChain_frame _ s).cycle
  · exact (sendFetch_frame s).cycle
  · exact (sendRemote_frame _ _).cycle

/-- R88, R135: the grant writes the message and its record. -/
theorem grantTo_media (c : Option Client) (s : State) : MediaKept s (s.grantTo c) := by
  unfold State.grantTo
  refine MediaKept.trans ?_ (.of_cycle (tickBringUp_frame _).cycle)
  exact (MediaKept.of_cycle (fill_cycle c s)).trans ⟨rfl, rfl, rfl⟩

theorem runAct_media (m : Tab Sample 64) (s : State) {a : CycleAct} (ha : a ≠ .lead) : MediaKept s (s.runAct m a) := by
  cases a with
  | lease p => exact .of_cycle (tickLease_cycle p s)
  | switch => exact .of_cycle (switchCycle_frame s).cycle
  | probe => exact .of_cycle (tickProbe_frame s).cycle
  | slot => exact (MediaKept.of_cycle (headChecks_frame s).cycle).trans (grantTo_media _ _)
  | lead => exact absurd rfl ha

/-- A reflexive and transitive relation kept by the steps of a list is kept by its fold. -/
theorem foldl_frame_mem {σ β : Type} {R : σ → σ → Prop} (refl : ∀ s, R s s) (trans : ∀ {a b c}, R a b → R b c → R a c)
    {f : σ → β → σ} {l : List β} (h : ∀ s, ∀ x ∈ l, R s (f s x)) (s : σ) : R s (l.foldl f s) := by
  induction l generalizing s with
  | nil => exact refl s
  | cons x l ih => exact trans (h s x List.mem_cons_self) (ih (fun s y hy => h s y (List.mem_cons_of_mem x hy)) _)

/-! The acts after the lead block -/

/-- The epoch, the plan, the chain state and the Cycle Engine do not differ. -/
structure LedKept (s t : State) : Prop where
  epoch : t.switch.epoch = s.switch.epoch
  plan : t.switch.plan = s.switch.plan
  chain : t.chain.state = s.chain.state
  cycle : t.cycle = s.cycle

theorem LedKept.refl (s : State) : LedKept s s := ⟨rfl, rfl, rfl, rfl⟩

theorem LedKept.trans {s t u : State} (a : LedKept s t) (b : LedKept t u) : LedKept s u :=
  ⟨b.epoch.trans a.epoch, b.plan.trans a.plan, b.chain.trans a.chain, b.cycle.trans a.cycle⟩

theorem EnginesKept.ledKept {s t : State} (f : EnginesKept s t) (h : t.cycle = s.cycle) : LedKept s t :=
  ⟨by rw [f.switch], by rw [f.switch], by rw [f.chain], h⟩

theorem reject_engines (s : State) (x : CommitEntry × Nat × FailReason) : EnginesKept s (s.reject x) :=
  (EnginesKept.mk (State.setDraft_switch s _ _) (State.setDraft_chain s _ _)).trans
    (.of_frame (notifySession_frame _ _ _ _).toStreamFrame)

theorem completeCommit_engines (s : State) (c : CommitEntry) : EnginesKept s (s.completeCommit c) :=
  (EnginesKept.mk (State.setDraft_switch s _ _) (State.setDraft_chain s _ _)).trans
    (.of_frame (notifySession_frame _ _ _ _).toStreamFrame)

theorem acceptCommit_engines (s : State) (c : CommitEntry) : EnginesKept s (s.acceptCommit c) :=
  (EnginesKept.mk (State.setDraft_switch s _ _) (State.setDraft_chain s _ _)).trans
    (.foldl (fun s op => .of_frame (acceptOp_frame s op)) _ _)

/-- R5, R61: the streams and drafts of an accepted batch apart, the hand-over has not begun. -/
theorem acceptAll_engines (v : Validation) (forced : List Handle) (s : State) :
    EnginesKept s (v.accepted.foldl State.acceptCommit (forced.foldl State.forceOut s)) :=
  (EnginesKept.foldl (f := State.forceOut) (fun s h => .of_frame (setStream_frame s h _)) forced s).trans
    (.foldl acceptCommit_engines _ _)

theorem rejectAll_engines (l : List (CommitEntry × Nat × FailReason)) (s : State) :
    EnginesKept s (l.foldl State.reject (s.setCommits [])) :=
  (EnginesKept.mk (State.setCommits_switch s _) (State.setCommits_chain s _)).trans (.foldl reject_engines _ _)

theorem setStale_chainState (b : Bool) (s : State) (p : Nat) : (s.setStale b p).chain.state = s.chain.state := by
  unfold State.setStale
  split
  · rfl
  · rw [(recompute_frame _).chain, State.setEntry_chain, ChainManager.setEntry_state]

theorem markStales_led (ps : List Nat) (s : State) : LedKept s (s.markStales ps) :=
  foldl_frame .refl .trans (fun s p =>
    have f := setStale_frame true s p
    ⟨by rw [f.switch], by rw [f.switch], setStale_chainState true s p, f.cycle⟩) ps s

theorem handOver_led (v : Validation) (s : State) : LedKept s (s.handOver v) := by
  have accepted := (acceptAll_engines v (s.batchRecord v).forced s).ledKept
    ((StreamFrame.foldl (f := State.forceOut) (fun s h => setStream_frame s h _) _ s).toBatchFrame.trans
      (.foldl acceptCommit_frame _ _)).cycle
  have marked := accepted.trans (markStales_led (s.batchRecord v).stale _)
  exact ⟨marked.epoch, marked.plan, marked.chain, marked.cycle⟩

theorem completeSettings_led (v : Validation) (s : State) : LedKept s (s.completeSettings v) := by
  have taken : LedKept s (s.takeSettings v.settings) := by rw [takeSettings_eq]; exact ⟨rfl, rfl, rfl, rfl⟩
  unfold State.completeSettings
  refine LedKept.trans ?_ ((EnginesKept.of_frame (announceSettings_frame _ _ _).toStreamFrame).ledKept
    (announceSettings_frame _ _ _).cycle)
  exact taken.trans ((EnginesKept.foldl completeCommit_engines _ _).ledKept (BatchFrame.foldl completeCommit_frame _ _).cycle)

theorem formIfDue_led (s : State) : LedKept s s.formIfDue := by
  unfold State.formIfDue
  split
  · unfold State.formBatch
    dsimp only
    have rejected : LedKept s (s.validate.rejected.foldl State.reject (s.setCommits [])) :=
      (rejectAll_engines _ s).ledKept (BatchFrame.foldl reject_frame s.validate.rejected (s.setCommits [])).cycle
    split
    · exact rejected.trans (handOver_led _ _)
    · split
      · exact rejected
      · exact rejected.trans (completeSettings_led _ _)
  · exact .refl s

theorem settleDraft_engines (p : Port) (s : State) : EnginesKept s (s.settleDraft p) := by
  unfold State.settleDraft
  split
  · exact .refl s
  · exact .discardDraft s p
  · exact (EnginesKept.mk (State.setCommits_switch s _) (State.setCommits_chain s _)).trans (.discardDraft _ p)
  · exact ⟨rfl, rfl⟩

theorem endSession_engines (p : Port) (w : EndReason) (s : State) : EnginesKept s (s.endSession p w) := by
  have settled := settleDraft_engines p (s.setPort p ((s.port p).ended w))
  exact ⟨settled.switch, settled.chain⟩

theorem tickLease_led (p : Port) (s : State) : LedKept s (s.tickLease p) := by
  rcases tickLease_cases p s with ⟨h, -⟩ | ⟨n, -, -, -, h⟩ | ⟨h, -⟩ <;> rw [h]
  · exact ((endSession_engines p _ s).ledKept (endSession_frame p _ s).cycle).trans (formIfDue_led _)
  · exact ⟨rfl, rfl, rfl, rfl⟩
  · exact .refl s

theorem tickProbe_led (s : State) : LedKept s s.tickProbe := by
  have f := tickProbe_frame s
  refine ⟨by rw [f.switch], by rw [f.switch], ?_, f.cycle⟩
  unfold State.tickProbe
  split
  · rfl
  · rfl
  · split <;> rfl

/-- R66, R88: the acts that do not feed the lead block leave what it shows, and the plan. -/
theorem runAct_led (m : Tab Sample 64) (s : State) {a : CycleAct} (hf : feedsLead a = false) (ha : a ≠ .lead) :
    LedKept s (s.runAct m a) := by
  cases a with
  | lease p => exact tickLease_led p s
  | switch => cases hf
  | probe => exact tickProbe_led s
  | slot => cases hf
  | lead => exact absurd rfl ha

/-! The place of the lead block among the acts -/

/-- The acts left, when the lead block is among them: it stands once, and no act that feeds it follows. -/
theorem actsLeft_split (o : List CycleAct) {s : State} (h : s.cycle.made .lead = false) :
    ∃ before after, s.actsLeft o = before ++ .lead :: after ∧ (∀ a ∈ before, a ≠ .lead)
      ∧ ∀ a ∈ after, feedsLead a = false ∧ a ≠ .lead := by
  have hnodup := actsOf_nodup o
  obtain ⟨pre, post, hacts, hpost⟩ : ∃ pre post, actsOf o = pre ++ .lead :: post ∧ ∀ a ∈ post, feedsLead a = false := by
    refine ⟨_, _, (List.append_assoc _ _ _), fun a ha => ?_⟩
    simpa using (List.mem_filter.1 ha).2
  rw [hacts, List.nodup_append] at hnodup
  obtain ⟨-, hcons, hdisj⟩ := hnodup
  refine ⟨pre.filter fun a => !s.cycle.made a, post.filter fun a => !s.cycle.made a, ?_, fun a ha => ?_, fun a ha => ⟨?_, ?_⟩⟩
  · rw [State.actsLeft, hacts, List.filter_append, List.filter_cons, if_pos (by simp [h])]
  · exact hdisj a (List.mem_filter.1 ha).1 .lead List.mem_cons_self
  · exact hpost a (List.mem_filter.1 ha).1
  · rintro rfl
    exact (List.nodup_cons.1 hcons).1 (List.mem_filter.1 ha).1

/-! The lead block itself -/

/-- R104, R105: what the first cycle start does besides enabling the chain port. -/
theorem firstBringUp_keeps (s : State) :
    s.firstBringUp.switch = s.switch ∧ s.firstBringUp.cycle.msg = s.cycle.msg ∧ MediaKept s s.firstBringUp
      ∧ s.firstBringUp.chain.state ≠ .off := by
  unfold State.firstBringUp
  split
  · exact ⟨rfl, rfl, ⟨rfl, rfl, rfl⟩, by simp [State.enablePort]⟩
  · next h => exact ⟨rfl, rfl, .refl s, by simp [h]⟩
  · next h => exact ⟨rfl, rfl, .refl s, by simp [h]⟩

/-- R17, R101: the lanes muted are the gated ones of streams with causes. -/
theorem mutedLanes_contains (s : State) (pass : Pass) (gated : List Nat) (i : Nat) :
    (s.mutedLanes pass gated).contains i = (gated.contains i && s.mutes pass i) := by
  have e : s.mutedLanes pass gated = gated.filter (s.mutes pass) := rfl
  rw [e, Bool.eq_iff_iff]
  simp

theorem mutes_congr {s t : State} (h1 : t.switch = s.switch) (h2 : t.streams = s.streams) (pass : Pass) (i : Nat) :
    t.mutes pass i = s.mutes pass i := by
  unfold State.mutes State.stream
  rw [h1, h2]

/-- R74: the countdown's decrease leaves the epoch and the plan. -/
theorem stepCountdown_keeps (x : SwitchEngine) : x.stepCountdown.epoch = x.epoch ∧ x.stepCountdown.plan = x.plan := by
  unfold SwitchEngine.stepCountdown
  split <;> exact ⟨rfl, rfl⟩

/-! The cycle start that opens -/

theorem openCycle_receiveWindowClose {s : State} (hs : s.resetHigh = true) (hb : s.cycle.begun = none) :
    ∃ u, exec (.receiveWindowClose TrailOrder.default) s = .next u
      ∧ s.openCycle = u.setCycle { u.cycle with counter := u.cycle.counter + 1, begun := some [] } := by
  refine ⟨s.arrive none TrailOrder.default, congrArg Host.Outcome.next (if_pos hs), ?_⟩
  simp only [State.openCycle, hb]

/-- With the window closed, or a cycle start in progress, the media frame is that of the cycle before. -/
theorem openCycle_media {s : State} (h : s.cycle.window = false ∨ s.cycle.begun ≠ none) : MediaKept s s.openCycle := by
  cases hb : s.cycle.begun with
  | some l => rw [openCycle_begun s l hb]; exact .refl s
  | none =>
    rw [openCycle_closed s (h.resolve_right fun hn => hn hb) hb]
    exact ⟨rfl, rfl, rfl⟩

/-- A window still open closes with no up pass (assumption 7). -/
theorem openCycle_silent {s : State} (hw : s.cycle.window = true) (hb : s.cycle.begun = none) :
    s.openCycle.cycle.upLanes = silence := by
  have f := arrive_frame none TrailOrder.default s hw
  simp only [State.openCycle, hb, State.setCycle_cycle, f.cycle]
  rfl

theorem carried_silence (gate mute : List Nat) (i : Fin 64) : carried gate mute silence i = 0#16 := by
  unfold carried
  split
  · exact Tab.get_fill _ _ i
  · rfl

/-- The lead block, the gate, the mute set and the frames of a cycle, as the lead act leaves them on `v`. -/
theorem leadAct_led (m : Tab Sample 64) (v : State) {t : State} (h : LedKept (v.runAct m .lead) t) :
    ∃ b, t.cycle.lead = some b ∧ b.cycle = t.cycle.counter.setWidth 16 ∧ b.epoch = t.switch.epoch ∧ b.token = v.switch.token
      ∧ b.countdown = (if v.switch.phase = .countdown then v.switch.countdown else 0)
      ∧ b.msg = t.cycle.msg ∧ t.cycle.window = true ∧ t.chain.state ≠ .off
      ∧ t.cycle.gate = gateOf t.switch.plan
      ∧ (∀ i, t.cycle.mute.down.contains i = (t.cycle.gate.down.contains i && v.mutes .down i))
      ∧ (∀ i, t.cycle.mute.up.contains i = (t.cycle.gate.up.contains i && v.mutes .up i))
      ∧ (∀ i, t.cycle.downLanes.get i = carried t.cycle.gate.down t.cycle.mute.down m i)
      ∧ ∀ i, t.cycle.mediaOut.get i = carried v.cycle.gate.up v.cycle.mute.up v.cycle.upLanes i := by
  obtain ⟨hswitch, hmsg, media, hstate⟩ := firstBringUp_keeps v
  have hmutes := mutes_congr hswitch (firstBringUp_streams v)
  obtain ⟨he, hp, hc, hcycle⟩ := h
  generalize hv : v.firstBringUp = x at hswitch hmsg media hstate hmutes
  have hrun : v.runAct m .lead = x.sendLead m := by rw [← hv]; rfl
  rw [hrun] at he hp hc hcycle
  obtain ⟨hepoch, hplan⟩ := stepCountdown_keeps x.switch
  refine ⟨x.leadBlock, ?_, ?_, ?_, ?_, ?_, ?_, ?_, ?_, ?_, fun i => ?_, fun i => ?_, fun i => ?_, fun i => ?_⟩
  · rw [hcycle]; rfl
  · rw [hcycle]; rfl
  · rw [he]; exact hepoch.symm
  · rw [← hswitch]; rfl
  · rw [← hswitch]; rfl
  · rw [hcycle]; rfl
  · rw [hcycle]; rfl
  · rw [hc]; exact hstate
  · rw [hcycle, hp]; exact congrArg gateOf hplan.symm
  · rw [hcycle, ← hmutes]; exact mutedLanes_contains x .down _ i
  · rw [hcycle, ← hmutes]; exact mutedLanes_contains x .up _ i
  · rw [hcycle]; exact Tab.get_ofFn _ i
  · rw [hcycle, ← media.gate, ← media.mute, ← media.upLanes]; exact Tab.get_ofFn _ i

/-- Settles O34: the lead act on the head the acts before it leave, and what the acts after it cannot reach. -/
theorem cycleStartBeginsCycle : Obligations.CycleStartBeginsCycle := by
  unfold Obligations.CycleStartBeginsCycle
  refine ⟨⟨rfl, fun c s t h e => exec_leadKept c e h⟩, fun m o s hs => ⟨openCycle_receiveWindowClose hs, fun hb => ?_,
    fun hlead => ?_⟩⟩
  · obtain ⟨l, hl⟩ := Option.ne_none_iff_exists'.1 hb
    exact openCycle_begun s l hl
  · obtain ⟨before, after, hacts, hbefore, hafter⟩ := actsLeft_split o ((openCycle_made s .lead).trans hlead)
    have media : MediaKept s.openCycle (before.foldl (State.runAct m) s.openCycle) :=
      foldl_frame_mem .refl .trans (fun s a ha => runAct_media m s (hbefore a ha)) _
    have counter := (acts_cycleFrame m before s.openCycle).counter
    generalize hv : before.foldl (State.runAct m) s.openCycle = v at media counter
    have led : LedKept (v.runAct m .lead) (after.foldl (State.runAct m) (v.runAct m .lead)) :=
      foldl_frame_mem .refl .trans (fun s a ha => runAct_led m s (hafter a ha).1 (hafter a ha).2) _
    have counter' := (runAct_cycleFrame m v .lead).counter
    generalize hx : after.foldl (State.runAct m) (v.runAct m .lead) = x at led
    obtain ⟨b, hblock, hcycle, hepoch, htoken, hcountdown, hmsg, hwindow, hchain, hgate, hmuteDown, hmuteUp, hdown, hmedia⟩ :=
      leadAct_led m v led
    have e : exec (.cycleStart m o) s = .next (x.setCycle { x.cycle with begun := none }) := by
      have e : exec (.cycleStart m o) s = .next (s.nextCycle m o) := congrArg Host.Outcome.next (if_pos hs)
      rw [e, State.nextCycle, State.makeActs, hacts, List.foldl_append, List.foldl_cons, hv, hx]
    refine ⟨_, b, before, after, v, e, hacts, hv.symm, ?_, rfl, hblock, hcycle, hepoch, htoken, hcountdown, hmsg,
      hwindow, hchain, hgate, hmuteDown, hmuteUp, hdown, fun hq i => ?_, fun hw hb i => ?_⟩
    · exact (congrArg CycleEngine.counter led.cycle).trans (counter'.trans counter)
    · have media' := (openCycle_media hq).trans media
      refine (hmedia i).trans ?_
      rw [media'.gate, media'.mute, media'.upLanes]
      rfl
    · refine (hmedia i).trans ?_
      rw [media.upLanes, openCycle_silent hw hb]
      exact carried_silence _ _ i

end Sys2Proof.Machine


/-! ### The formation of a batch (R5, R56 to R62, R67) -/

namespace Sys2Proof.Machine

/-! Notices at a port queue (R160) -/

/-- The notices in a queue. -/
def noticeCount (q : List QueueEntry) : Nat := q.countP fun e => !e.isEvent

theorem mem_dropNewestEvent {q : List QueueEntry} {e : QueueEntry} (he : e.isEvent = false) (h : e ∈ q) :
    e ∈ dropNewestEvent q := by
  rw [dropNewestEvent, List.mem_reverse, List.mem_eraseP_of_neg (by simp [he]), List.mem_reverse]
  exact h

theorem noticeCount_dropNewestEvent_le (q : List QueueEntry) : noticeCount (dropNewestEvent q) ≤ noticeCount q := by
  unfold noticeCount dropNewestEvent
  rw [List.countP_reverse]
  exact (List.eraseP_sublist.countP_le).trans (List.countP_reverse).le

/-- A queue without events holds notices only. -/
theorem length_eq_noticeCount {q : List QueueEntry} (h : eventCount q = 0) : q.length = noticeCount q := by
  have := List.length_eq_countP_add_countP QueueEntry.isEvent (l := q)
  unfold eventCount at h
  unfold noticeCount
  rw [h, Nat.zero_add] at this
  rw [this]
  exact List.countP_congr fun e _ => by simp

/-- R160: no notice gives way to a later one. -/
theorem mem_putNotice_of_mem {e : QueueEntry} {r : RouterPort} (he : e.isEvent = false) (h : e ∈ r.queue) (x : QueueEntry) :
    e ∈ (r.putNotice x).queue := by
  unfold RouterPort.putNotice
  split
  · exact List.mem_append_left _ h
  · split
    · exact h
    · exact List.mem_append_left _ (mem_dropNewestEvent he h)

/-- R160: a notice finds room while fewer than 16 entries are notices. -/
theorem mem_putNotice_self {x : QueueEntry} {r : RouterPort} (h : noticeCount r.queue < 16) : x ∈ (r.putNotice x).queue := by
  unfold RouterPort.putNotice
  split
  · exact List.mem_append_right _ List.mem_cons_self
  · next hlen =>
    split
    · next hev =>
      have := length_eq_noticeCount hev
      unfold Config.queueSize at hlen
      omega
    · exact List.mem_append_right _ List.mem_cons_self

theorem noticeCount_putNotice_le (x : QueueEntry) (r : RouterPort) :
    noticeCount (r.putNotice x).queue ≤ noticeCount r.queue + 1 := by
  have one : noticeCount [x] ≤ 1 := List.countP_le_length
  unfold RouterPort.putNotice
  split
  · simp only [noticeCount, List.countP_append] at one ⊢
    omega
  · split
    · exact Nat.le_succ _
    · have := noticeCount_dropNewestEvent_le r.queue
      simp only [noticeCount, List.countP_append] at one this ⊢
      omega

/-- R156: what a notice for one port makes of every queue. -/
theorem routerPort_notify (s : State) (p q : Port) (n : Notice) :
    (s.notify p n).routerPort q =
      if q = p ∧ s.attached p = true then (s.routerPort q).putNotice { item := .notice n, stamp := s.stamp }
      else s.routerPort q := by
  unfold State.notify
  split
  · next h =>
    rw [State.routerPort_setRouter]
    simp only [h, and_true]
    split
    · next e => rw [e]
    · rfl
  · next h => rw [if_neg fun e => h e.2]

/-- Notices stay in their queues. -/
def NoticesKept (s t : State) : Prop :=
  ∀ p e, e.isEvent = false → e ∈ (s.routerPort p).queue → e ∈ (t.routerPort p).queue

namespace NoticesKept

theorem refl (s : State) : NoticesKept s s := fun _ _ _ => id

theorem trans {s t u : State} (a : NoticesKept s t) (b : NoticesKept t u) : NoticesKept s u :=
  fun p e he h => b p e he (a p e he h)

theorem foldl {β : Type} {f : State → β → State} (h : ∀ s x, NoticesKept s (f s x)) (l : List β) (s : State) :
    NoticesKept s (l.foldl f s) := foldl_frame .refl .trans h l s

theorem of_router {s t : State} (e : t.router = s.router) : NoticesKept s t := fun p x _ h => by
  rw [State.routerPort, e]; exact h

theorem notify (s : State) (p : Port) (n : Notice) : NoticesKept s (s.notify p n) := fun q e he h => by
  rw [routerPort_notify]
  split
  · exact mem_putNotice_of_mem he h _
  · exact h

theorem notifySession (s : State) (p : Port) (k : Nat) (n : Notice) : NoticesKept s (s.notifySession p k n) := by
  unfold State.notifySession
  split
  · exact notify s p n
  · exact refl s

theorem notifyOwner? (s : State) (r : Stream) (n : Option Notice) : NoticesKept s (s.notifyOwner? r n) := by
  unfold State.notifyOwner?
  split
  · unfold State.notifyOwner
    split
    · split
      · exact notify s _ _
      · exact refl s
    · exact refl s
  · exact refl s

theorem recompute (s : State) : NoticesKept s s.recompute := by
  refine foldl (fun s h => ?_) allHandles s
  unfold State.recomputeStream
  dsimp only
  split
  · exact refl s
  · exact (of_router (State.setStream_router s h _)).trans (notifyOwner? _ _ _)

theorem setStale (b : Bool) (s : State) (p : Nat) : NoticesKept s (s.setStale b p) := by
  unfold State.setStale
  split
  · exact refl s
  · exact (of_router (State.setEntry_router s p _)).trans (recompute _)

theorem announceSettings (s : State) (ks : List Setting) (x : Settings) : NoticesKept s (s.announceSettings ks x) :=
  foldl (fun s _ => foldl (fun s p => notify s p _) allPorts s) ks s

end NoticesKept

/-! Rejected commits (R58) -/

theorem reject_notices (s : State) (x : CommitEntry × Nat × FailReason) : NoticesKept s (s.reject x) :=
  (NoticesKept.of_router (State.setDraft_router s _ _)).trans (.notifySession _ _ _ _)

/-- A rejection puts at most one notice into a queue. -/
theorem noticeCount_reject_le (s : State) (x : CommitEntry × Nat × FailReason) (q : Port) :
    noticeCount ((s.reject x).routerPort q).queue ≤ noticeCount (s.routerPort q).queue + 1 := by
  unfold State.reject State.notifySession
  split
  · rw [routerPort_notify]
    split
    · exact noticeCount_putNotice_le _ _
    · exact Nat.le_succ _
  · exact Nat.le_succ _

/-- The entry a rejection puts into its owner's queue. -/
def rejection (s : State) (y : CommitEntry × Nat × FailReason) : QueueEntry :=
  { item := .notice (.commitRejected y.2.1 y.2.2), stamp := s.cycle.counter }

theorem rejection_mem_reject {s : State} {y : CommitEntry × Nat × FailReason} (hatt : s.attached y.1.port = true)
    (hses : (s.port y.1.port).session = y.1.session) (hroom : noticeCount (s.routerPort y.1.port).queue < 16) :
    rejection s y ∈ ((s.reject y).routerPort y.1.port).queue := by
  unfold State.reject State.notifySession
  rw [State.port_setDraft, if_pos hses, routerPort_notify, State.attached_setDraft, if_pos ⟨rfl, hatt⟩]
  exact mem_putNotice_self hroom

/-- R58: with room for the notices of all the rejections, each owner gets its own. -/
theorem rejection_mem_rejectAll {l : List (CommitEntry × Nat × FailReason)} {s : State} {y : CommitEntry × Nat × FailReason}
    (hy : y ∈ l) (hatt : s.attached y.1.port = true) (hses : (s.port y.1.port).session = y.1.session)
    (hroom : noticeCount (s.routerPort y.1.port).queue + l.length ≤ 16) :
    rejection s y ∈ ((l.foldl State.reject s).routerPort y.1.port).queue := by
  induction l generalizing s with
  | nil => cases hy
  | cons x l ih =>
    rw [List.length_cons] at hroom
    rcases List.mem_cons.1 hy with rfl | hy
    · exact NoticesKept.foldl reject_notices l _ _ _ rfl (rejection_mem_reject hatt hses (by omega))
    · have f := reject_frame s x
      have port : (s.reject x).port y.1.port = s.port y.1.port := by rw [State.port, f.ports]; rfl
      have same : rejection s y = rejection (s.reject x) y := by rw [rejection, rejection, f.cycle]
      have := noticeCount_reject_le s x y.1.port
      rw [List.foldl_cons, same]
      exact ih hy (by rw [State.attached, port]; exact hatt) (by rw [port]; exact hses) (by omega)

/-- The draft of a rejected commit. -/
def Draft.reopened (d : Draft) : Draft := { d with state := .opened, flags := none }

theorem draft_reject (s : State) (x : CommitEntry × Nat × FailReason) (p : Port) :
    (s.reject x).draft p = if p = x.1.port then (s.draft p).reopened else s.draft p := by
  rw [State.draft, State.reject, (notifySession_frame _ _ _ _).drafts]
  refine (State.draft_setDraft s x.1.port p _).trans ?_
  split
  · next e => rw [e]; rfl
  · rfl

theorem draft_rejectAll (l : List (CommitEntry × Nat × FailReason)) (s : State) (p : Port) :
    (l.foldl State.reject s).draft p = if p ∈ l.map (fun y => y.1.port) then (s.draft p).reopened else s.draft p := by
  induction l generalizing s with
  | nil => simp
  | cons x l ih =>
    have twice (d : Draft) : d.reopened.reopened = d.reopened := rfl
    rw [List.foldl_cons, ih, draft_reject, List.map_cons]
    by_cases h1 : p = x.1.port <;> by_cases h2 : p ∈ l.map (fun y => y.1.port) <;>
      simp only [h1, h2, twice, List.mem_cons, true_or, false_or, if_true, if_false, ite_self]

theorem entries_rejectAll (l : List (CommitEntry × Nat × FailReason)) (s : State) (p : Port) :
    ((l.foldl State.reject s).draft p).entries = (s.draft p).entries := by
  rw [draft_rejectAll]
  split <;> rfl

/-! Accepted commits (R5, R61) -/

/-- R5: what some ops of a draft make of one record. -/
theorem stream_acceptOps (ops : List DraftEntry) (s : State) (h : Handle) :
    (ops.foldl State.acceptOp s).stream h = (ops.filter fun e => e.handle? == some h).foldl Stream.accepted (s.stream h) := by
  induction ops generalizing s with
  | nil => rfl
  | cons op ops ih =>
    have one : (s.acceptOp op).stream h = if op.handle? = some h then (s.stream h).accepted op else s.stream h := by
      unfold State.acceptOp
      split
      · next k hk =>
        rw [State.stream_setStream, hk]
        simp only [Option.some_inj]
        by_cases e : h = k
        · rw [if_pos e, if_pos e.symm, e]
        · rw [if_neg e, if_neg (Ne.symm e)]
      · next hn => rw [hn]; rfl
    rw [List.foldl_cons, ih, one, List.filter_cons]
    by_cases e : op.handle? = some h <;> simp [e]

theorem draft_acceptCommit (s : State) (c : CommitEntry) (p : Port) :
    (s.acceptCommit c).draft p = if p = c.port then { s.draft p with state := .active } else s.draft p := by
  rw [State.draft, State.acceptCommit, (StreamFrame.foldl acceptOp_frame _ _).drafts]
  refine (State.draft_setDraft s c.port p _).trans ?_
  split
  · next e => rw [e]
  · rfl

theorem draft_acceptCommits (l : List CommitEntry) (s : State) (p : Port) :
    (l.foldl State.acceptCommit s).draft p =
      if p ∈ l.map CommitEntry.port then { s.draft p with state := .active } else s.draft p := by
  induction l generalizing s with
  | nil => simp
  | cons c l ih =>
    rw [List.foldl_cons, ih, draft_acceptCommit, List.map_cons]
    by_cases h1 : p = c.port <;> by_cases h2 : p ∈ l.map CommitEntry.port <;>
      simp only [h1, h2, List.mem_cons, true_or, false_or, if_true, if_false, ite_self]

/-- The ops on a handle depend on the entries of the drafts only. -/
theorem opsOn_congr {s t : State} (h : ∀ p, (t.draft p).entries = (s.draft p).entries) (l : List CommitEntry) (k : Handle) :
    t.opsOn l k = s.opsOn l k := by
  unfold State.opsOn
  simp only [h]

/-- R5: what the accepted commits make of one record. -/
theorem stream_acceptCommits (l : List CommitEntry) (s : State) (h : Handle) :
    (l.foldl State.acceptCommit s).stream h = (s.opsOn l h).foldl Stream.accepted (s.stream h) := by
  induction l generalizing s with
  | nil => rfl
  | cons c l ih =>
    have entries (p : Port) : ((s.acceptCommit c).draft p).entries = (s.draft p).entries := by
      rw [draft_acceptCommit]; split <;> rfl
    have first : (s.acceptCommit c).stream h =
        ((s.draft c.port).entries.filter fun e => e.handle? == some h).foldl Stream.accepted (s.stream h) :=
      stream_acceptOps _ _ _
    have ops : s.opsOn (c :: l) h = ((s.draft c.port).entries.filter fun e => e.handle? == some h) ++ s.opsOn l h := by
      simp only [State.opsOn, List.flatMap_cons, List.filter_append]
    rw [List.foldl_cons, ih, opsOn_congr entries, first, ops, List.foldl_append]

theorem mem_opsOn {s : State} {l : List CommitEntry} {h : Handle} {e : DraftEntry} :
    e ∈ s.opsOn l h ↔ (∃ c ∈ l, e ∈ (s.draft c.port).entries) ∧ e.handle? = some h := by
  simp [State.opsOn]

theorem mem_marked (s : State) (h : Handle) : h ∈ s.marked ↔ (s.stream h).mark ≠ .none := by
  simp [State.marked, mem_allHandles]

/-- R5, R61: what the forced closes of a batch make of one record. -/
theorem stream_forceOuts (s t : State) (h : Handle) :
    (s.marked.foldl State.forceOut t).stream h = if h ∈ s.marked then (t.stream h).forcedOut else t.stream h :=
  stream_foldl_each (inv := fun _ => ()) (g := fun _ _ => Stream.forcedOut) (fun _ _ => rfl)
    (fun s h k => State.stream_setStream s h k _) s.marked (allHandles_nodup.filter _) t h

theorem accepted_causes (ops : List DraftEntry) (r : Stream) : (ops.foldl Stream.accepted r).causes = r.causes := by
  induction ops generalizing r with
  | nil => rfl
  | cons op ops ih =>
    rw [List.foldl_cons, ih]
    cases op <;> simp only [Stream.accepted]
    split <;> rfl

/-- R5: a CLOSE of a stream that is on its way out is satisfied. -/
theorem accepted_closings {ops : List DraftEntry} {h : Handle} (hops : ∀ e ∈ ops, e = .closing h) {r : Stream}
    (hr : r.state = .switchingOut) : ops.foldl Stream.accepted r = r := by
  induction ops with
  | nil => rfl
  | cons op ops ih =>
    rw [hops op List.mem_cons_self] at *
    rw [List.foldl_cons, Stream.accepted, if_pos hr]
    exact ih fun e he => hops e (List.mem_cons_of_mem _ he)

/-! Validation (R36, R57, R58) -/

theorem named_isSome {s : State} {c : CommitEntry} {w : Working} {h : Handle} {e : PlanEntry} (hn : s.named c w h = some e) :
    (s.stream h).belongsTo c.port c.session = true := by
  unfold State.named at hn
  split at hn
  · next hc => exact hc.2
  · cases hn

/-- R36: an accepted RESIZE names a stream of its session. -/
theorem belongsTo_of_resizing {s : State} {forced : List Handle} {c : CommitEntry} {w w' : Working} {h : Handle} {n : Nat}
    (hv : s.validateOp forced c w (.resizing h n) = .ok w') : (s.stream h).belongsTo c.port c.session = true := by
  simp only [State.validateOp] at hv
  cases hn : s.named c w h with
  | none => rw [hn] at hv; cases hv
  | some e => exact named_isSome hn

/-- R58: of a commit whose ops all pass, each op passes on some working plan. -/
theorem validateOp_of_validateOps {s : State} {forced : List Handle} {c : CommitEntry} {ops : List DraftEntry} {i : Nat}
    {w w' : Working} (hv : s.validateOps forced c i ops w = .ok w') {op : DraftEntry} (hop : op ∈ ops) :
    ∃ u u', s.validateOp forced c u op = .ok u' := by
  induction ops generalizing i w with
  | nil => cases hop
  | cons a ops ih =>
    rw [State.validateOps] at hv
    split at hv
    · next u hu =>
      rcases List.mem_cons.1 hop with rfl | hop
      · exact ⟨w, u, hu⟩
      · exact ih hv hop
    · cases hv

/-- What validation has decided is about commits of the queue, and the ops of an accepted one have passed. -/
structure Validation.Sound (s : State) (l : List CommitEntry) (v : Validation) : Prop where
  accepted : ∀ c ∈ v.accepted, c ∈ l
  rejected : ∀ y ∈ v.rejected, y.1 ∈ l
  passed : ∀ c ∈ v.accepted, ∀ op ∈ (s.draft c.port).entries, ∃ w w', s.validateOp s.marked c w op = .ok w'

theorem validateCommit_sound {s : State} {l : List CommitEntry} {v : Validation} (h : v.Sound s l) {c : CommitEntry} (hc : c ∈ l) :
    (s.validateCommit s.marked v c).Sound s l := by
  unfold State.validateCommit
  split
  · next w hw =>
    refine ⟨fun x hx => ?_, h.rejected, fun x hx => ?_⟩ <;> rcases List.mem_append.1 hx with hx | hx
    · exact h.accepted x hx
    · rw [List.mem_singleton.1 hx]; exact hc
    · exact h.passed x hx
    · rw [List.mem_singleton.1 hx]; exact fun op => validateOp_of_validateOps hw
  · next i r hr =>
    refine ⟨h.accepted, fun y hy => ?_, h.passed⟩
    rcases List.mem_append.1 hy with hy | hy
    · exact h.rejected y hy
    · rw [List.mem_singleton.1 hy]; exact hc

theorem validate_sound (s : State) : s.validate.Sound s s.commits := by
  have key (l : List CommitEntry) (hl : ∀ c ∈ l, c ∈ s.commits) (v : Validation) (h : v.Sound s s.commits) :
      (l.foldl (s.validateCommit s.marked) v).Sound s s.commits := by
    induction l generalizing v with
    | nil => exact h
    | cons c l ih =>
      exact ih (fun x hx => hl x (List.mem_cons_of_mem c hx)) _ (validateCommit_sound h (hl c List.mem_cons_self))
  exact key s.commits (fun _ => id) _ ⟨fun c hc => (nomatch hc), fun y hy => (nomatch hy), fun c hc => (nomatch hc)⟩

/-! The hand-over (R61, R62, R67) -/

/-- The record of a batch depends on the streams, the Switch Engine and the chain only. -/
theorem batchRecord_congr {s t : State} (f : EnginesKept s t) (e : t.streams = s.streams) (v : Validation) :
    t.batchRecord v = s.batchRecord v := by
  simp only [State.batchRecord, State.marked, State.stream, State.entry, f.switch, f.chain, e]

theorem mem_differing (w w' : Plan) (q : Nat) : q ∈ differing w w' ↔ (1 ≤ q ∧ q ≤ 15) ∧ mapOf w q ≠ mapOf w' q := by
  simp [differing, ChainManager.mem_positions]

theorem differing_pairwise (w w' : Plan) : (differing w w').Pairwise (· < ·) :=
  (List.pairwise_lt_range' (s := 1) (n := 15)).filter _

theorem reachable_iff (c : ChainManager) (q : Nat) :
    c.reachable q = true ↔ (c.entry q).state = .ready ∧ c.beyondIsolated q = false := by
  simp [ChainManager.reachable, ChainManager.isReady]

theorem reachable_eq_false_iff (c : ChainManager) (q : Nat) :
    c.reachable q = false ↔ (c.entry q).state ≠ .ready ∨ c.beyondIsolated q = true := by
  rw [← Bool.not_eq_true, reachable_iff, not_and_or, Bool.not_eq_false]

theorem mem_affected (s : State) (v : Validation) (q : Nat) :
    q ∈ (s.batchRecord v).affected ↔ 1 ≤ q ∧ q ≤ 15 ∧ mapOf s.switch.plan q ≠ mapOf v.work.plan q
      ∧ (s.entry q).state = .ready ∧ s.chain.beyondIsolated q = false := by
  simp only [State.batchRecord, List.mem_filter, mem_differing, reachable_iff, and_assoc, State.entry]

theorem mem_stale (s : State) (v : Validation) (q : Nat) :
    q ∈ (s.batchRecord v).stale ↔ 1 ≤ q ∧ q ≤ 15 ∧ mapOf s.switch.plan q ≠ mapOf v.work.plan q
      ∧ ((s.entry q).state ≠ .ready ∨ s.chain.beyondIsolated q = true) ∧ (s.entry q).stale = false := by
  simp only [State.batchRecord, List.mem_filter, mem_differing, Bool.and_eq_true, Bool.not_eq_true', reachable_eq_false_iff,
    and_assoc, State.entry]

/-- The head as the hand-over finds it: the commit queue taken, the rejected commits answered (R58). -/
def State.rejecting (s : State) : State := s.validate.rejected.foldl State.reject (s.setCommits [])

theorem rejecting_engines (s : State) : EnginesKept s s.rejecting := rejectAll_engines _ s

theorem rejecting_streams (s : State) : s.rejecting.streams = s.streams :=
  streams_foldl (f := State.reject) reject_streams s.validate.rejected (s.setCommits [])

theorem rejecting_frame (s : State) : BatchFrame (s.setCommits []) s.rejecting := .foldl reject_frame _ _

theorem draft_rejecting (s : State) (p : Port) :
    s.rejecting.draft p = if p ∈ s.validate.rejected.map (fun y => y.1.port) then (s.draft p).reopened else s.draft p :=
  draft_rejectAll s.validate.rejected (s.setCommits []) p

theorem entries_rejecting (s : State) (p : Port) : (s.rejecting.draft p).entries = (s.draft p).entries :=
  entries_rejectAll s.validate.rejected (s.setCommits []) p

/-- Table 3-7: the three outcomes of a batch. -/
theorem formBatch_eq (s : State) :
    s.formBatch = if needsSwitch s.switch.plan s.validate.work.plan then s.rejecting.handOver s.validate
      else if s.validate.accepted.isEmpty then s.rejecting else s.rejecting.completeSettings s.validate := rfl

theorem exec_batchFormation {s : State} (hs : s.resetHigh = true) (hd : s.batchDue = true) :
    exec .batchFormation s = .next s.formBatch := by
  have e : exec .batchFormation s = .next s.formIfDue := congrArg Host.Outcome.next (if_pos hs)
  rw [e, State.formIfDue, if_pos hd]

section
variable (s : State) (v : Validation)

/-- The streams and drafts after the accepted commits of a batch, the stale marks not yet set. -/
def State.accepting (s : State) (v : Validation) : State := v.accepted.foldl State.acceptCommit (s.marked.foldl State.forceOut s)

theorem accepting_engines : EnginesKept s (s.accepting v) := acceptAll_engines v s.marked s

theorem forceOuts_frame (l : List Handle) : StreamFrame s (l.foldl State.forceOut s) :=
  .foldl (f := State.forceOut) (fun s h => setStream_frame s h _) l s

theorem draft_accepting (p : Port) :
    (s.accepting v).draft p =
      if p ∈ v.accepted.map CommitEntry.port then { s.draft p with state := .active } else s.draft p := by
  rw [State.accepting, draft_acceptCommits, State.draft, (forceOuts_frame s _).drafts]
  rfl

theorem stream_accepting (h : Handle) :
    (s.accepting v).stream h = (s.opsOn v.accepted h).foldl Stream.accepted
      (if (s.stream h).mark ≠ .none then (s.stream h).forcedOut else s.stream h) := by
  have entries (p : Port) : ((s.marked.foldl State.forceOut s).draft p).entries = (s.draft p).entries := by
    rw [State.draft, (forceOuts_frame s _).drafts]; rfl
  rw [State.accepting, stream_acceptCommits, stream_forceOuts, opsOn_congr entries]
  simp only [mem_marked]

/-- The head as a batch leaves it is the accepted one with the stale marks set and the batch taken. -/
theorem handOver_eq :
    s.handOver v = ((s.accepting v).markStales (s.batchRecord v).stale).setSwitch (s.switch.takeBatch (s.batchRecord v)) := by
  have e : ((s.accepting v).markStales (s.batchRecord v).stale).switch = s.switch :=
    (markStales_frame _ _).switch.trans (accepting_engines s v).switch
  rw [← e]
  rfl

theorem handOver_switch : (s.handOver v).switch = s.switch.takeBatch (s.batchRecord v) := by rw [handOver_eq]; rfl

theorem draft_handOver (p : Port) :
    (s.handOver v).draft p =
      if p ∈ v.accepted.map CommitEntry.port then { s.draft p with state := .active } else s.draft p := by
  rw [handOver_eq, State.draft_setSwitch, State.draft, (markStales_frame _ _).drafts]
  exact draft_accepting s v p

/-- R62: the stale marks a batch sets. -/
theorem entry_handOver (q : Nat) :
    (s.handOver v).entry q = if q ∈ (s.batchRecord v).stale then { s.entry q with stale := true } else s.entry q := by
  have e : (s.accepting v).entry q = s.entry q := by rw [State.entry, (accepting_engines s v).chain]; rfl
  rw [handOver_eq, State.entry_setSwitch, State.markStales, entry_setStales, e]
  by_cases hq : q ∈ (s.batchRecord v).stale
  · obtain ⟨h1, h2, -⟩ := (mem_stale s v q).1 hq
    rw [if_pos ⟨hq, h1, h2⟩, if_pos hq]
  · rw [if_neg fun h => hq h.1, if_neg hq]

theorem stream_handOver (h : Handle) :
    ((s.accepting v).stream h).Recaused ((s.handOver v).stream h)
      ∧ ((s.batchRecord v).stale = [] → (s.handOver v).stream h = (s.accepting v).stream h) := by
  rw [handOver_eq, State.stream_setSwitch, State.markStales]
  exact ⟨setStales_recaused true _ _ h, fun h0 => by rw [h0]; rfl⟩

theorem handOver_notices : NoticesKept s (s.handOver v) := by
  have ops (s : State) (op : DraftEntry) : NoticesKept s (s.acceptOp op) := by
    unfold State.acceptOp
    split
    · exact .of_router (State.setStream_router s _ _)
    · exact .refl s
  have commits (s : State) (c : CommitEntry) : NoticesKept s (s.acceptCommit c) :=
    (NoticesKept.of_router (State.setDraft_router s _ _)).trans (.foldl ops _ _)
  have forced : NoticesKept s (s.marked.foldl State.forceOut s) :=
    .foldl (f := State.forceOut) (fun s h => .of_router (State.setStream_router s h _)) _ s
  rw [handOver_eq]
  exact ((forced.trans (.foldl commits _ _)).trans (.foldl (NoticesKept.setStale true) _ _)).trans
    (.of_router (State.setSwitch_router _ _))

/-! A batch that completes with settings only (R60) -/

theorem takeSettings_commits (x : Settings) : (s.takeSettings x).commits = s.commits := by rw [takeSettings_eq]; rfl

theorem completeSettings_commits : (s.completeSettings v).commits = s.commits :=
  ((announceSettings_frame _ _ _).commits.trans (BatchFrame.foldl completeCommit_frame _ _).commits).trans
    (takeSettings_commits s _)

theorem draft_completeCommits {l : List CommitEntry} {p : Port} (hp : ∀ c ∈ l, c.port ≠ p) :
    (l.foldl State.completeCommit s).draft p = s.draft p := by
  refine foldl_frame_mem (R := fun s t : State => t.draft p = s.draft p) (fun _ => rfl) (fun a b => b.trans a)
    (fun s c hc => ?_) s
  rw [State.draft, State.completeCommit, (notifySession_frame _ _ _ _).drafts]
  exact (State.draft_setDraft s c.port p _).trans (if_neg (hp c hc).symm)

theorem draft_completeSettings {p : Port} (hp : ∀ c ∈ v.accepted, c.port ≠ p) :
    (s.completeSettings v).draft p = s.draft p := by
  have taken : (s.takeSettings v.settings).draft p = s.draft p := by rw [takeSettings_eq]; rfl
  rw [State.draft, State.completeSettings, (announceSettings_frame _ _ _).drafts]
  exact (draft_completeCommits _ hp).trans taken

theorem completeSettings_notices : NoticesKept s (s.completeSettings v) := by
  have taken : NoticesKept s (s.takeSettings v.settings) := .of_router (by rw [takeSettings_eq]; rfl)
  refine (taken.trans (.foldl (fun s c => ?_) v.accepted _)).trans (.announceSettings _ _ _)
  exact (NoticesKept.of_router (State.setDraft_router s _ _)).trans (.notifySession _ _ _ _)

end

/-! One batch formation -/

theorem formBatch_commits (s : State) : s.formBatch.commits = [] := by
  have rejected : s.rejecting.commits = [] := (rejecting_frame s).commits
  rw [formBatch_eq]
  split
  · exact (handOver_frame _ _).commits.trans rejected
  · split
    · exact rejected
    · exact (completeSettings_commits _ _).trans rejected

theorem formBatch_notices (s : State) : NoticesKept s.rejecting s.formBatch := by
  rw [formBatch_eq]
  split
  · exact handOver_notices _ _
  · split
    · exact .refl _
    · exact completeSettings_notices _ _

/-- A draft of a port without an accepted commit is as the rejections leave it. -/
theorem draft_formBatch {s : State} {p : Port} (hp : ∀ c ∈ s.validate.accepted, c.port ≠ p) :
    s.formBatch.draft p = s.rejecting.draft p := by
  rw [formBatch_eq]
  split
  · rw [draft_handOver, if_neg fun hm => let ⟨c, hc, e⟩ := List.mem_map.1 hm; hp c hc e]
  · split
    · rfl
    · exact draft_completeSettings _ _ hp

/-- R58: what a rejection leaves and tells. -/
theorem formBatch_rejects {s : State} {y : CommitEntry × Nat × FailReason} (hy : y ∈ s.validate.rejected) :
    ((∀ c ∈ s.validate.accepted, c.port ≠ y.1.port) →
        s.formBatch.draft y.1.port = { s.draft y.1.port with state := .opened, flags := none })
      ∧ (s.attached y.1.port = true → (s.port y.1.port).session = y.1.session →
          noticeCount (s.routerPort y.1.port).queue + s.validate.rejected.length ≤ 16 →
          rejection s y ∈ (s.formBatch.routerPort y.1.port).queue) := by
  refine ⟨fun hp => ?_, fun hatt hses hroom => ?_⟩
  · have hm : y.1.port ∈ s.validate.rejected.map fun y => y.1.port := List.mem_map_of_mem hy
    rw [draft_formBatch hp, draft_rejecting, if_pos hm]
    rfl
  · exact formBatch_notices s _ _ rfl (rejection_mem_rejectAll (s := s.setCommits []) hy hatt hses hroom)

end Sys2Proof.Machine


/-! ### A batch that needs a switch (R61 to R67, R72) -/

namespace Sys2Proof.Machine

section
variable {s : State}

theorem rejecting_batchRecord (v : Validation) : s.rejecting.batchRecord v = s.batchRecord v :=
  batchRecord_congr (rejecting_engines s) (rejecting_streams s) v

theorem formBatch_switches (hn : needsSwitch s.switch.plan s.validate.work.plan = true) :
    s.formBatch = s.rejecting.handOver s.validate := by rw [formBatch_eq, if_pos hn]

/-- R67, R72: the Switch Engine takes the batch. -/
theorem formBatch_switch (hn : needsSwitch s.switch.plan s.validate.work.plan = true) :
    s.formBatch.switch = s.switch.takeBatch (s.batchRecord s.validate) := by
  rw [formBatch_switches hn, handOver_switch, rejecting_batchRecord, (rejecting_engines s).switch]

theorem entry_formBatch (hn : needsSwitch s.switch.plan s.validate.work.plan = true) (q : Nat) :
    s.formBatch.entry q =
      if q ∈ (s.batchRecord s.validate).stale then { s.entry q with stale := true } else s.entry q := by
  have e : s.rejecting.entry q = s.entry q := by rw [State.entry, (rejecting_engines s).chain]; rfl
  rw [formBatch_switches hn, entry_handOver, rejecting_batchRecord, e]

theorem fetch_formBatch (hn : needsSwitch s.switch.plan s.validate.work.plan = true) : s.formBatch.fetch = s.fetch := by
  rw [formBatch_switches hn]
  exact (handOver_frame _ _).fetch.trans (rejecting_frame s).fetch

/-- The record of a stream as the forced closes and the accepted ops of a batch leave it (R5). -/
def State.taken (s : State) (h : Handle) : Stream :=
  (s.opsOn s.validate.accepted h).foldl Stream.accepted
    (if (s.stream h).mark ≠ .none then (s.stream h).forcedOut else s.stream h)

/-- The stale marks then set bring causes to it, and nothing else. -/
theorem stream_formBatch (hn : needsSwitch s.switch.plan s.validate.work.plan = true) (h : Handle) :
    (s.taken h).Recaused (s.formBatch.stream h)
      ∧ ((s.batchRecord s.validate).stale = [] → s.formBatch.stream h = s.taken h) := by
  have same : s.rejecting.stream h = s.stream h := by rw [State.stream, rejecting_streams]; rfl
  have e : (s.rejecting.accepting s.validate).stream h = s.taken h := by
    rw [stream_accepting, opsOn_congr (entries_rejecting s), same]; rfl
  have := stream_handOver s.rejecting s.validate h
  rw [rejecting_batchRecord, e, ← formBatch_switches hn] at this
  exact this

theorem draft_formBatch_accepted (hn : needsSwitch s.switch.plan s.validate.work.plan = true) {c : CommitEntry}
    (hc : c ∈ s.validate.accepted) :
    (s.formBatch.draft c.port).state = .active ∧ (s.formBatch.draft c.port).entries = (s.draft c.port).entries := by
  rw [formBatch_switches hn, draft_handOver, if_pos (List.mem_map_of_mem hc)]
  exact ⟨rfl, entries_rejecting s c.port⟩

/-- R53: a draft whose port has no commit in the queue is in no batch. -/
theorem draft_formBatch_other {p : Port} (hp : ∀ c ∈ s.commits, c.port ≠ p) : s.formBatch.draft p = s.draft p := by
  have sound := validate_sound s
  rw [draft_formBatch fun c hc => hp c (sound.accepted c hc), draft_rejecting, if_neg]
  intro hm
  obtain ⟨y, hy, e⟩ := List.mem_map.1 hm
  exact hp y.1 (sound.rejected y hy) e

/-! The record of a stream, by the ops that name it (R5) -/

theorem taken_unmarked {h : Handle} (hm : (s.stream h).mark = .none) :
    s.taken h = (s.opsOn s.validate.accepted h).foldl Stream.accepted (s.stream h) := by
  rw [State.taken, if_neg (not_not_intro hm)]

theorem taken_marked {h : Handle} (hm : (s.stream h).mark ≠ .none) (hops : ∀ e ∈ s.opsOn s.validate.accepted h, e = .closing h) :
    s.taken h = (s.stream h).forcedOut := by
  rw [State.taken, if_pos hm, accepted_closings hops rfl]

/-- R5: the close cause of a stream that carries a mark. -/
theorem mark_cause_eq {m : ReleaseMark} : m.cause = if m = .replaced then .replaced else .released := by
  cases m <;> rfl

theorem taken_causes (h : Handle) : (s.taken h).causes = (s.stream h).causes := by
  rw [State.taken, accepted_causes]
  split <;> rfl

/-- R36: a stream that an accepted RESIZE names is no orphan. -/
theorem orphan_of_resizing {h k : Handle} {n : Nat} (ho : s.opsOn s.validate.accepted h = [.resizing k n]) :
    (s.stream h).orphan = false := by
  have hmem : DraftEntry.resizing k n ∈ s.opsOn s.validate.accepted h := by rw [ho]; exact List.mem_cons_self
  obtain ⟨⟨c, hc, hop⟩, hk⟩ := mem_opsOn.1 hmem
  obtain ⟨w, w', hv⟩ := (validate_sound s).passed c hc _ hop
  have hkh : k = h := Option.some_inj.1 hk
  have hb := belongsTo_of_resizing hv
  rw [hkh] at hb
  exact ((belongsTo_iff _ _ _).1 hb).2

variable (hn : needsSwitch s.switch.plan s.validate.work.plan = true)
include hn

theorem stream_formBatch_marked {h : Handle} (hm : (s.stream h).mark ≠ .none)
    (hops : ∀ e ∈ s.opsOn s.validate.accepted h, e = .closing h) :
    s.formBatch.stream h = { s.stream h with
      state := .switchingOut, mark := .none, causes := (s.formBatch.stream h).causes
      change := .close (if (s.stream h).mark = .replaced then .replaced else .released) } := by
  have a := (stream_formBatch hn h).1
  rw [taken_marked hm hops, Stream.forcedOut, mark_cause_eq] at a
  exact a.still (by simp) (by simp)

theorem stream_formBatch_opening {h k : Handle} {src n : Nat} {snk : List Nat} {l : BitVec 16} (hm : (s.stream h).mark = .none)
    (ho : s.opsOn s.validate.accepted h = [.opening k src snk n l]) :
    s.formBatch.stream h = { s.stream h with state := .switchingIn, causes := (s.formBatch.stream h).causes } := by
  have a := (stream_formBatch hn h).1
  rw [taken_unmarked hm, ho] at a
  exact a.still (by simp [Stream.accepted]) (by simp [Stream.accepted])

theorem stream_formBatch_resizing {h k : Handle} {n : Nat} (hm : (s.stream h).mark = .none)
    (ho : s.opsOn s.validate.accepted h = [.resizing k n]) :
    s.formBatch.stream h = { s.stream h with
      change := .resize n, state := (s.formBatch.stream h).state, causes := (s.formBatch.stream h).causes } := by
  have a := (stream_formBatch hn h).1
  rw [taken_unmarked hm, ho] at a
  have hmark : (s.formBatch.stream h).mark = (s.stream h).mark :=
    a.same_mark fun e => by
      have := orphan_of_resizing ho
      rw [show (s.stream h).orphan = true from e.1] at this
      cases this
  have hfields := a.fields
  rw [hmark] at hfields
  exact hfields

theorem stream_formBatch_closing {h k : Handle} (hm : (s.stream h).mark = .none)
    (ho : s.opsOn s.validate.accepted h = [.closing k]) (hs : (s.stream h).state ≠ .switchingOut) :
    s.formBatch.stream h = { s.stream h with
      state := .switchingOut, change := .close .owner, causes := (s.formBatch.stream h).causes } := by
  have a := (stream_formBatch hn h).1
  have e : [DraftEntry.closing k].foldl Stream.accepted (s.stream h) =
      { s.stream h with state := .switchingOut, change := .close .owner } := if_neg hs
  rw [taken_unmarked hm, ho, e] at a
  exact a.still (by simp) (by simp)

theorem stream_formBatch_unnamed {h : Handle} (hm : (s.stream h).mark = .none) (ho : s.opsOn s.validate.accepted h = []) :
    (s.stream h).Recaused (s.formBatch.stream h) := by
  have a := (stream_formBatch hn h).1
  rw [taken_unmarked hm, ho] at a
  exact a

end

/-- Settles O40: the rejections of any batch, then a batch that needs a switch register group by register group. -/
theorem batchHandsOverSwitch : Obligations.BatchHandsOverSwitch := by
  unfold Obligations.BatchHandsOverSwitch
  refine ⟨?_, ?_⟩
  · rintro s x hs hd rfl
    exact ⟨_, exec_batchFormation hs hd, formBatch_commits s, fun y => formBatch_rejects⟩
  · rintro s x hs hd rfl hn
    have f := formBatch_frame s
    have sw := formBatch_switch hn
    refine ⟨_, s.batchRecord s.validate, exec_batchFormation hs hd, formBatch_commits s, by rw [sw]; rfl, by rw [sw]; rfl,
      by rw [sw]; rfl, rfl, rfl, rfl, rfl, fun h0 => ?_, fun h0 => ?_, (differing_pairwise _ _).filter _,
      (differing_pairwise _ _).filter _, mem_affected s _, mem_stale s _, entry_formBatch hn, fun h hm hops => ?_,
      fun h hm => ⟨?_, ?_, ?_, ?_, ?_⟩, fun h0 h => ⟨?_, fun ho hm => ?_⟩, fun c => draft_formBatch_accepted hn,
      fun p => draft_formBatch_other, by rw [sw]; rfl, by rw [sw]; rfl, by rw [sw]; rfl, f.ports, f.cycle, f.remote, f.arbiter,
      fetch_formBatch hn⟩
    · rw [sw, SwitchEngine.takeBatch, h0]
      exact ⟨rfl, rfl⟩
    · rw [sw, SwitchEngine.takeBatch]
      refine ⟨?_, rfl, ?_⟩
      · cases ha : (s.batchRecord s.validate).affected with
        | nil => exact absurd ha h0
        | cons _ _ => rfl
      · rw [List.map_map]
        exact List.map_id _
    · exact ⟨(mem_marked s h).2 hm, stream_formBatch_marked hn hm hops⟩
    · exact fun h' => (mem_marked s h).1 h' hm
    · exact fun k src snk n l ho => stream_formBatch_opening hn hm ho
    · exact fun k n ho => stream_formBatch_resizing hn hm ho
    · exact fun k ho => stream_formBatch_closing hn hm ho
    · exact fun ho => (stream_formBatch_unnamed hn hm ho).fields
    · rw [(stream_formBatch hn h).2 h0, taken_causes]
    · rw [(stream_formBatch hn h).2 h0, taken_unmarked hm, ho]
      rfl

end Sys2Proof.Machine


/-! ### First fit (R25) -/

namespace Sys2Proof.Machine

/-- A run that lies in the pass is not free exactly when one of its lanes is held. -/
theorem runFree_eq_false_iff {w : Plan} {pass : Pass} {f n : Nat} (hf : f + n ≤ Config.lanes) :
    runFree w pass f n = false ↔ ∃ i, f ≤ i ∧ i < f + n ∧ laneFree w pass i = false := by
  rw [← Bool.not_eq_true, runFree_iff]
  simp [hf]

/-- R25: first fit gives the lowest first lane at which the run is free. -/
theorem firstFit_eq_some_iff (w : Plan) (pass : Pass) (n f : Nat) :
    firstFit w pass n = some f ↔ runFree w pass f n = true ∧ f < Config.lanes ∧ ∀ g, g < f → runFree w pass g n = false := by
  simp [firstFit, List.find?_range_eq_some]

/-- R25: first fit fails exactly when the run is free at no lane. -/
theorem firstFit_eq_none_iff (w : Plan) (pass : Pass) (n : Nat) :
    firstFit w pass n = none ↔ ∀ f, f < Config.lanes → runFree w pass f n = false := by
  simp [firstFit]

/-- A run lies in the pass when its last lane is at most 63. -/
theorem lastLane_le_iff {f n : Nat} : f + n - 1 ≤ 63 ↔ f + n ≤ Config.lanes := by
  unfold Config.lanes; omega

/-- A run of at least one lane that lies in the pass begins in it. -/
theorem firstLane_lt {f n : Nat} (hn : 1 ≤ n) (hf : f + n ≤ Config.lanes) : f < Config.lanes := by omega

/-- Settles O39: the search of first fit, its run test written out lane by lane. -/
theorem firstFitTakesLowestRun : Obligations.FirstFitTakesLowestRun := by
  unfold Obligations.FirstFitTakesLowestRun
  intro w pass n hn _
  simp only [lastLane_le_iff]
  refine ⟨fun f => ?_, ?_⟩
  · rw [firstFit_eq_some_iff, runFree_iff]
    constructor
    · rintro ⟨⟨hin, hfree⟩, -, hlow⟩
      exact ⟨hin, hfree, fun g hg => (runFree_eq_false_iff (by omega)).1 (hlow g hg)⟩
    · rintro ⟨hin, hfree, hlow⟩
      exact ⟨⟨hin, hfree⟩, firstLane_lt hn hin, fun g hg => (runFree_eq_false_iff (by omega)).2 (hlow g hg)⟩
  · rw [firstFit_eq_none_iff]
    constructor
    · intro h f hf
      exact (runFree_eq_false_iff hf).1 (h f (firstLane_lt hn hf))
    · intro h f _
      by_cases hf : f + n ≤ Config.lanes
      · exact (runFree_eq_false_iff hf).2 (h f hf)
      · rw [← Bool.not_eq_true, runFree_iff]
        exact fun hr => hf hr.1

end Sys2Proof.Machine


/-! ### The plans stay in order, operation by operation (R21) -/

namespace Sys2Proof.Machine

/-- The plans of the second head are in order when those of the first are. -/
def PlansKept (s t : State) : Prop := s.planLaw → t.planLaw

namespace PlansKept

theorem refl (s : State) : PlansKept s s := id

theorem trans {s t u : State} (a : PlansKept s t) (b : PlansKept t u) : PlansKept s u := b ∘ a

theorem foldl {β : Type} {f : State → β → State} (h : ∀ s x, PlansKept s (f s x)) (l : List β) (s : State) :
    PlansKept s (l.foldl f s) := foldl_frame .refl .trans h l s

/-- The active plan stays, and a batch in flight is the one that was. -/
theorem of_plans {s t : State} (hp : t.switch.plan = s.switch.plan)
    (hb : ∀ b, t.switch.batch = some b → s.switch.batch = some b) : PlansKept s t := fun ⟨active, next⟩ =>
  ⟨hp ▸ active, fun b h => next b (hb b h)⟩

theorem of_switch {s t : State} (e : t.switch = s.switch) : PlansKept s t :=
  of_plans (by rw [e]) fun _ h => e ▸ h

theorem of_frame {s t : State} (f : ChainFrame s t) : PlansKept s t := of_switch f.switch

theorem of_engines {s t : State} (f : EnginesKept s t) : PlansKept s t := of_switch f.switch

end PlansKept

theorem planOk_nil : planOk [] := ⟨fun _ h => (nomatch h), .nil⟩

/-! The formation of a batch: its next plan is the validated one -/

theorem takeSettings_plans (x : Settings) (s : State) : PlansKept s (s.takeSettings x) := by
  rw [takeSettings_eq]
  exact .of_plans rfl fun _ => id

theorem completeSettings_plans (v : Validation) (s : State) : PlansKept s (s.completeSettings v) := by
  unfold State.completeSettings
  exact ((takeSettings_plans _ s).trans (.of_engines (.foldl completeCommit_engines _ _))).trans
    (.of_frame (announceSettings_frame _ _ _).toChainFrame)

/-- R61: the hand-over of a validated plan that is in order. -/
theorem handOver_planLaw {s : State} {v : Validation} (h : planOk s.switch.plan) (hv : planOk v.work.plan) :
    (s.handOver v).planLaw := by
  unfold State.planLaw
  rw [handOver_switch]
  refine ⟨h, fun b hb => ?_⟩
  cases hb
  exact hv

theorem formBatch_plans (s : State) : PlansKept s s.formBatch := fun h => by
  have rejected : s.rejecting.planLaw := PlansKept.of_engines (rejecting_engines s) h
  rw [formBatch_eq]
  split
  · exact handOver_planLaw rejected.1 (validate_ok s h.1)
  · split
    · exact rejected
    · exact completeSettings_plans _ _ rejected

theorem formIfDue_plans (s : State) : PlansKept s s.formIfDue := by
  unfold State.formIfDue
  split
  · exact formBatch_plans s
  · exact .refl s

/-! The switch: the next plan becomes the active one, or the batch is given up -/

/-- R75: the plan a switch cycle makes active is the next plan of the batch in flight. -/
theorem switchChanges_planLaw {s : State} {b : Batch} (hb : s.switch.batch = some b) (h : s.planLaw) :
    (s.switchChanges b).planLaw := by
  rw [switchChanges_eq]
  exact ⟨h.2 b hb, h.2⟩

theorem switchCycle_plans (s : State) : PlansKept s s.switchCycle := by
  unfold State.switchCycle
  split
  · next b hb =>
    split
    · exact PlansKept.trans (switchChanges_planLaw hb) (.of_frame (switchResults_frame s b _).toChainFrame)
    · exact .refl s
  · exact .refl s

theorem abandon_plans (w : AbandonReason) (s : State) : PlansKept s (s.abandon w) := by
  cases hb : s.switch.batch with
  | none => rw [State.abandon, hb]; exact .refl s
  | some b =>
    have sw := abandon_switch hb w
    exact .of_plans (by rw [sw]; rfl) fun b h => by rw [sw] at h; cases h

theorem abandonOnLoss_plans (ps : List Nat) (s : State) : PlansKept s (s.abandonOnLoss ps) := by
  unfold State.abandonOnLoss
  split
  · exact abandon_plans _ s
  · exact .refl s

theorem settleEnd_plans (s : State) : PlansKept s s.settleEnd :=
  (PlansKept.of_frame (markAllUnsettled_frame s)).trans (.of_plans rfl fun _ h => (nomatch h))

/-- R72: the completion of PREPARE leaves the plan and the batch. -/
theorem completed_keeps (x : SwitchEngine) : x.completed.plan = x.plan ∧ x.completed.batch = x.batch := by
  unfold SwitchEngine.completed
  split
  · split <;> exact ⟨rfl, rfl⟩
  · exact ⟨rfl, rfl⟩

theorem readPrepare_plans (a : Arrival) (s : State) : PlansKept s (s.readPrepare a) := by
  unfold State.readPrepare
  split
  · exact .refl s
  · split
    · exact abandon_plans _ s
    · obtain ⟨plan, batch⟩ := completed_keeps (s.switch.readPrepare a)
      exact .of_plans plan fun b h => batch.symm.trans h

theorem readSwitch_plans (a : Arrival) (s : State) : PlansKept s (s.readSwitch a) := by
  unfold State.readSwitch
  split
  · exact .refl s
  · exact readPrepare_plans a s
  · exact .of_plans rfl fun _ => id
  · have settling : PlansKept s (s.setSwitch (s.switch.readSettle a)) := .of_plans rfl fun _ => id
    dsimp only
    split
    · exact settling.trans (settleEnd_plans _)
    · exact settling

/-! Remote access and event fetch leave the Switch Engine -/

theorem failRemotes_switch (p : Port) (w : RemoteReason) (l : List RemoteRequest) (s : State) :
    (l.foldl (State.failRemote p w) s).switch = s.switch := (RouterFrame.foldl (failRemote_frame p w) l s).switch

theorem loseRemote_switch (ps : List Nat) (s : State) (p : Port) : (s.loseRemote ps p).switch = s.switch :=
  failRemotes_switch p _ _ _

theorem answerRemote_switch (a : Arrival) (o : Outstanding) (s : State) : (s.answerRemote a o).switch = s.switch := by
  unfold State.answerRemote
  split
  · exact (remoteResult_frame s _ _ _).switch
  · split
    · rfl
    · exact (remoteResult_frame s _ _ _).switch

theorem readRemote_switch (a : Arrival) (s : State) : (s.readRemote a).switch = s.switch := by
  unfold State.readRemote
  split
  · split
    · rfl
    · exact answerRemote_switch a _ _
  · rfl

theorem takeEvent_switch (p : Nat) (ans : Option Answer) (s : State) : (s.takeEvent p ans).switch = s.switch := by
  unfold State.takeEvent
  split
  · dsimp only
    split
    · split
      · exact (raise_frame _ _).switch
      · rfl
    · rfl
  · rfl

theorem answerFetch_switch (a : Arrival) (s : State) : (s.answerFetch a).switch = s.switch := by
  unfold State.answerFetch
  split
  · exact takeEvent_switch _ _ _
  · rfl

theorem readPending_switch (t : Trail) (s : State) : (s.readPending t).switch = s.switch := by
  unfold State.readPending
  split <;> rfl

theorem readFetch_switch (a : Arrival) (s : State) : (s.readFetch a).switch = s.switch :=
  (readPending_switch _ _).trans (answerFetch_switch a s)

/-! The chain: losses abandon a switch, and what waits for the Switch Engine forms a batch -/

theorem settleWork_plans (m : Meet) (s : State) : PlansKept s (s.settleWork m) := by
  cases m
  · exact ((PlansKept.of_frame (moveEntries_frame s)).trans (formIfDue_plans _)).trans (.of_frame (ensureResync_frame _))
  · exact ((formIfDue_plans s).trans (.of_frame (moveEntries_frame _))).trans (.of_frame (ensureResync_frame _))

theorem reportLosses_plans (ps : List Nat) (s : State) : PlansKept s (s.reportLosses ps) := by
  unfold State.reportLosses
  refine PlansKept.trans ?_ (.foldl (fun s p => .of_switch (loseRemote_switch ps s p)) _ _)
  exact ((PlansKept.of_frame (recompute_frame s).toChainFrame).trans (abandonOnLoss_plans ps _)).trans
    (.of_switch (State.setFetch_switch _ _))

theorem losePositions_plans (ps : List Nat) (s : State) : PlansKept s (s.losePositions ps) := by
  unfold State.losePositions
  split
  · exact .refl s
  · refine PlansKept.trans ?_ (reportLosses_plans ps _)
    exact (PlansKept.of_frame (setChain_frame s _)).trans (.foldl (fun s _ => .of_frame (raise_frame s _).toChainFrame) _ _)

theorem breakChain_plans (s : State) : PlansKept s s.breakChain :=
  (PlansKept.of_frame (setChain_frame s _)).trans (losePositions_plans _ _)

theorem applyBreak_plans (a : Arrival) (m : Meet) (s : State) : PlansKept s (s.applyBreak a m) := by
  have counted : PlansKept s (s.setChain (s.chain.countShort a.trail.reach)) := .of_frame (setChain_frame s _)
  unfold State.applyBreak
  dsimp only
  split
  · exact counted.trans ((breakChain_plans _).trans (settleWork_plans m _))
  · exact counted

theorem resyncFailed_plans (p : Nat) (s : State) : PlansKept s (s.resyncFailed p) := by
  unfold State.resyncFailed
  split
  · exact .of_switch rfl
  · exact losePositions_plans _ s

theorem answerResync_plans (p : Nat) (ans : Option Answer) (s : State) : PlansKept s (s.answerResync p ans) := by
  unfold State.answerResync
  split
  · split
    · split
      · exact .of_frame (resyncDone_frame p s)
      · exact resyncFailed_plans p s
    · exact .refl s
  · exact .refl s

theorem answerChain_plans (a : Arrival) (s : State) : PlansKept s (s.answerChain a) := by
  unfold State.answerChain
  split
  · exact .of_frame (answerSeek_frame _ _ s)
  · exact .of_frame (answerExtend_frame _ _ s)
  · exact answerResync_plans _ _ s
  · exact .of_frame (answerProbe_frame _ _ s)
  all_goals exact .refl s

theorem readChain_plans (a : Arrival) (m : Meet) (s : State) : PlansKept s (s.readChain a m) := by
  unfold State.readChain
  refine PlansKept.trans ?_ (answerChain_plans a _)
  refine PlansKept.trans ?_ (.of_frame (readEntries_frame a _))
  exact (PlansKept.of_frame (setChain_frame s _)).trans (applyBreak_plans a m _)

/-! The trail arrival -/

theorem runReader_plans (a : Arrival) (m : Meet) (s : State) (r : Reader) : PlansKept s (s.runReader a m r) := by
  cases r with
  | hop => exact (PlansKept.of_frame (readHops_frame a s)).trans (settleWork_plans m _)
  | chain => exact (readChain_plans a m s).trans (settleWork_plans m _)
  | switch => exact (readSwitch_plans a s).trans (settleWork_plans m _)
  | fetch => exact (PlansKept.of_switch (readFetch_switch a s)).trans (settleWork_plans m _)
  | remote => exact (PlansKept.of_switch (readRemote_switch a s)).trans (settleWork_plans m _)

theorem arrive_plans (up : Option UpPass) (o : TrailOrder) (s : State) : PlansKept s (s.arrive up o) := by
  unfold State.arrive
  split
  · exact (PlansKept.of_switch (State.setCycle_switch s _)).trans (.foldl (runReader_plans _ _) _ _)
  · exact .refl s

theorem openCycle_plans (s : State) : PlansKept s s.openCycle := by
  unfold State.openCycle
  split
  · exact .refl s
  · exact (arrive_plans none TrailOrder.default s).trans (.of_switch rfl)

/-! The acts of a cycle start -/

theorem expireLease_plans (p : Port) (s : State) : PlansKept s (s.expireLease p) :=
  (PlansKept.of_engines (endSession_engines p _ s)).trans (formIfDue_plans _)

theorem tickLease_plans (p : Port) (s : State) : PlansKept s (s.tickLease p) := by
  rcases tickLease_cases p s with ⟨e, -⟩ | ⟨n, -, -, -, e⟩ | ⟨e, -⟩ <;> rw [e]
  · exact expireLease_plans p s
  · exact .of_switch rfl
  · exact .refl s

theorem headChecks_switch (s : State) : s.headChecks.switch = s.switch :=
  foldl_frame (R := fun s t : State => t.switch = s.switch) (fun _ => rfl) (fun a b => b.trans a)
    (fun s p => failRemotes_switch p _ _ (s.setRemoteQueue p _)) allPorts s

/-- R88, R142: of the clients only the switch client touches the Switch Engine, and it leaves the plans. -/
theorem fill_plans (c : Option Client) (s : State) : PlansKept s (s.fill c).1 := by
  unfold State.fill
  split
  · exact .refl s
  · obtain ⟨-, plan, -, -, -, batch, -⟩ := switch_send_keeps s.switch
    exact .of_plans plan fun b h => batch.symm.trans h
  · exact .of_frame (sendChain_frame _ s)
  · unfold State.sendFetch; split <;> exact .of_switch rfl
  · unfold State.sendRemote; split <;> exact .of_switch rfl

theorem grantTo_plans (c : Option Client) (s : State) : PlansKept s (s.grantTo c) := by
  unfold State.grantTo
  refine PlansKept.trans ?_ (.of_frame (tickBringUp_frame _))
  exact (fill_plans c s).trans (.of_switch rfl)

theorem grantSlot_plans (s : State) : PlansKept s s.grantSlot :=
  (PlansKept.of_switch (headChecks_switch s)).trans (grantTo_plans _ _)

theorem stepCountdown_batch (x : SwitchEngine) : x.stepCountdown.batch = x.batch := by
  unfold SwitchEngine.stepCountdown
  split <;> rfl

/-- R74: the lead block's decrease of the countdown leaves the plans. -/
theorem sendLead_plans (m : Tab Sample 64) (s : State) : PlansKept s (s.sendLead m) :=
  .of_plans (stepCountdown_keeps s.switch).2 fun _ h => (stepCountdown_batch s.switch).symm.trans h

theorem runAct_plans (m : Tab Sample 64) (s : State) (a : CycleAct) : PlansKept s (s.runAct m a) := by
  cases a with
  | lease p => exact tickLease_plans p s
  | switch => exact switchCycle_plans s
  | probe => exact .of_frame (tickProbe_frame s)
  | slot => exact grantSlot_plans s
  | lead => exact (PlansKept.of_switch (firstBringUp_keeps s).1).trans (sendLead_plans m _)

theorem nextCycle_plans (m : Tab Sample 64) (o : List CycleAct) (s : State) : PlansKept s (s.nextCycle m o) := by
  unfold State.nextCycle State.makeActs
  exact ((openCycle_plans s).trans (.foldl (runAct_plans m) _ _)).trans (.of_switch rfl)

theorem actAlone_plans {due : State → Bool} {a : CycleAct} {act : State → State} (h : ∀ s, PlansKept s (act s)) (s : State) :
    PlansKept s (s.actAlone due a act) := by
  obtain ⟨-, -, e⟩ | ⟨-, e⟩ := actAlone_cases due a act s <;> rw [e]
  · exact ((openCycle_plans s).trans (h _)).trans (.of_switch rfl)
  · exact .refl s

theorem underGuard_plans {c : State → Bool} {f : State → State} (h : ∀ s, PlansKept s (f s)) (s : State) :
    PlansKept s (s.underGuard c f) := by
  unfold State.underGuard
  split
  · exact h s
  · exact .refl s

end Sys2Proof.Machine


/-! ### Requests and commands: the plans stay in order (R21) -/

namespace Sys2Proof.Machine

/-- An owner of requests that leaves the Switch Engine as it is. -/
def LeavesSwitch {α : Type} (owner : α → State → State × Response) : Prop := ∀ a s, (owner a s).1.switch = s.switch

theorem takeAttach_switch (p : Port) : LeavesSwitch (State.takeAttach p) := fun _ _ => by
  unfold State.takeAttach; split <;> rfl

theorem takeDetach_switch (p : Port) : LeavesSwitch (State.takeDetach p) := fun _ s => (endSession_engines p .detach s).switch

theorem takeDraftOpen_switch (p : Port) : LeavesSwitch (State.takeDraftOpen p) := fun _ _ => by
  unfold State.takeDraftOpen; repeat' split
  all_goals rfl

theorem takeDraftClose_switch (p : Port) : LeavesSwitch (State.takeDraftClose p) := fun _ _ => by
  unfold State.takeDraftClose; repeat' split
  all_goals rfl

theorem takeDraftResize_switch (p : Port) : LeavesSwitch (State.takeDraftResize p) := fun _ _ => by
  unfold State.takeDraftResize; repeat' split
  all_goals rfl

theorem takeDraftSet_switch (p : Port) : LeavesSwitch (State.takeDraftSet p) := fun _ _ => by
  unfold State.takeDraftSet; repeat' split
  all_goals rfl

theorem takeDraftDrop_switch (p : Port) : LeavesSwitch (State.takeDraftDrop p) := fun _ s => by
  unfold State.takeDraftDrop
  split
  · rfl
  · split
    · rfl
    · split
      · rfl
      · exact (freeOpened_frame s _).switch

theorem takeDraftClear_switch (p : Port) : LeavesSwitch (State.takeDraftClear p) := fun _ s => by
  unfold State.takeDraftClear
  split
  · rfl
  · rfl
  · rfl
  · exact (EnginesKept.discardDraft s p).switch

theorem takeDraftView_switch (p : Port) : LeavesSwitch (State.takeDraftView p) := fun _ _ => by
  unfold State.takeDraftView; split <;> rfl

theorem takeCommit_switch (p : Port) : LeavesSwitch (State.takeCommit p) := fun _ _ => by
  unfold State.takeCommit; repeat' split
  all_goals rfl

theorem takeWithdraw_switch (p : Port) : LeavesSwitch (State.takeWithdraw p) := fun _ _ => by
  unfold State.takeWithdraw; split <;> rfl

theorem takeStreamInfo_switch : LeavesSwitch State.takeStreamInfo := fun _ _ => by
  unfold State.takeStreamInfo; split <;> rfl

theorem takeListStreams_switch : LeavesSwitch State.takeListStreams := fun _ _ => by
  unfold State.takeListStreams; split <;> rfl

theorem takeChainInfo_switch : LeavesSwitch State.takeChainInfo := fun _ _ => by
  unfold State.takeChainInfo; repeat' split
  all_goals rfl

theorem takeRemote_switch (p : Port) : LeavesSwitch (State.takeRemote p) := fun _ _ => by
  unfold State.takeRemote; repeat' split
  all_goals rfl

theorem takeSubscribe_switch (p : Port) : LeavesSwitch (State.takeSubscribe p) := fun _ _ => by
  unfold State.takeSubscribe; split <;> rfl

theorem takeReadQueue_switch (p : Port) : LeavesSwitch (State.takeReadQueue p) := fun _ _ => by
  unfold State.takeReadQueue; split <;> rfl

/-- R64: an accepted restart leaves an empty plan; a refused one changes nothing. -/
theorem takeChainRestart_plans (p : Port) (a : Unit) (s : State) : PlansKept s (s.takeChainRestart p a).1 := fun h => by
  unfold State.takeChainRestart
  split
  · exact h
  · split
    · exact h
    · have sw : (s.restartChain p).switch = s.switch.restarted := (restartChain_router p s).switch
      unfold State.planLaw
      rw [sw]
      exact ⟨planOk_nil, h.2⟩

/-! The request frame -/

/-- What a request frame keeps: what its owner keeps, what it sets off keeps, and every change of a port context. -/
theorem requestThen_rel {R : State → State → Prop} (refl : ∀ s, R s s) (trans : ∀ {s t u}, R s t → R t u → R s u)
    (setPort : ∀ s p c, R s (s.setPort p c)) {α : Type} {open? : Bool} {p : Port} {b : Sized α}
    {owner : α → State → State × Response} {after : State → State} (h : ∀ a s, R s (owner a s).1) (ha : ∀ s, R s (after s))
    (s : State) : R s (s.requestThen open? p b owner after) := by
  have taken : R s (s.takeRequest open? p b owner).1 := by
    unfold State.takeRequest
    split
    · exact refl s
    · split
      · exact refl s
      · exact h _ s
  have answered (r : Response) : R s ((s.takeRequest open? p b owner).1.respond p r) := trans taken (setPort _ p _)
  unfold State.requestThen
  split
  · exact setPort s p _
  · dsimp only
    split
    · exact trans (answered _) (ha _)
    · exact answered _

theorem requestThen_plans {α : Type} {open? : Bool} {p : Port} {b : Sized α} {owner : α → State → State × Response}
    {after : State → State} (h : ∀ a s, PlansKept s (owner a s).1) (ha : ∀ s, PlansKept s (after s)) (s : State) :
    PlansKept s (s.requestThen open? p b owner after) :=
  requestThen_rel .refl .trans (fun _ _ _ => .of_switch rfl) h ha s

theorem request_plans {α : Type} {open? : Bool} {p : Port} {b : Sized α} {owner : α → State → State × Response}
    (h : LeavesSwitch owner) (s : State) : PlansKept s (s.request open? p b owner) :=
  requestThen_plans (fun a s => .of_switch (h a s)) .refl s

theorem refuse_switch (p : Port) (st : Status) (s : State) : (s.refuse p st).switch = s.switch := by
  unfold State.refuse
  split <;> rfl

/-- R21 at a transaction of a host port. -/
theorem exec_plans_of_hostPort {c : Instr} {p : Port} (hc : hostPort c = some p) {s t : State} (e : exec c s = .next t) :
    PlansKept s t := by
  have released {f : State → State} (h : ∀ s, PlansKept s (f s)) (e : s.whenReleased f = .next t) : PlansKept s t :=
    whenReleased_keeps .refl h e
  cases c
  case frameError q _ => exact released (fun s => .of_switch (refuse_switch q _ s)) e
  case badRequest q _ _ => exact released (fun s => .of_switch (refuse_switch q _ s)) e
  case responseRead q n => exact released (fun s => .of_switch (State.setPort_switch s q ((s.port q).readOut n))) e
  case attach q _ => exact released (request_plans (takeAttach_switch q)) e
  case detach q _ => exact released (requestThen_plans (fun a s => .of_switch (takeDetach_switch q a s)) formIfDue_plans) e
  case portStatus q _ => exact released (request_plans fun _ _ => rfl) e
  case draftOpen q _ => exact released (request_plans (takeDraftOpen_switch q)) e
  case draftClose q _ => exact released (request_plans (takeDraftClose_switch q)) e
  case draftResize q _ => exact released (request_plans (takeDraftResize_switch q)) e
  case draftSet q _ => exact released (request_plans (takeDraftSet_switch q)) e
  case draftDrop q _ => exact released (request_plans (takeDraftDrop_switch q)) e
  case draftClear q _ => exact released (request_plans (takeDraftClear_switch q)) e
  case draftView q _ => exact released (request_plans (takeDraftView_switch q)) e
  case commit q _ => exact released (requestThen_plans (fun a s => .of_switch (takeCommit_switch q a s)) formIfDue_plans) e
  case withdraw q _ => exact released (request_plans (takeWithdraw_switch q)) e
  case streamInfo q _ => exact released (request_plans takeStreamInfo_switch) e
  case listStreams q _ => exact released (request_plans takeListStreams_switch) e
  case planInfo q _ => exact released (request_plans fun _ _ => rfl) e
  case chainInfo q _ => exact released (request_plans takeChainInfo_switch) e
  case chainRestart q _ => exact released (requestThen_plans (takeChainRestart_plans q) .refl) e
  case remoteRead q _ => exact released (request_plans fun _ => takeRemote_switch q _) e
  case remoteWrite q _ => exact released (request_plans fun _ => takeRemote_switch q _) e
  case subscribe q _ => exact released (request_plans (takeSubscribe_switch q)) e
  case readQueue q _ => exact released (request_plans (takeReadQueue_switch q)) e
  all_goals cases hc

theorem reset_planLaw : State.reset.planLaw := ⟨planOk_nil, fun _ h => (nomatch h)⟩

/-- R21 at every command. -/
theorem exec_plans (c : Instr) {s t : State} (e : exec c s = .next t) : PlansKept s t := by
  have released {f : State → State} (h : ∀ s, PlansKept s (f s)) (e : s.whenReleased f = .next t) : PlansKept s t :=
    whenReleased_keeps .refl h e
  cases c
  case deviceReset => cases e; exact fun _ => reset_planLaw
  case resetRelease => cases e; exact .of_switch rfl
  case cycleStart m o => exact released (nextCycle_plans m o) e
  case trailArrival up o => exact released (arrive_plans (some up) o) e
  case receiveWindowClose o => exact released (arrive_plans none o) e
  case leaseExpiry p => exact released (actAlone_plans (expireLease_plans p)) e
  case probeDue => exact released (actAlone_plans fun s => .of_frame (tickProbe_frame s)) e
  case bringupSeek => exact released (actAlone_plans grantSlot_plans) e
  case switchCycle => exact released (actAlone_plans switchCycle_plans) e
  case batchFormation => exact released formIfDue_plans e
  case isolationRecovery p =>
    exact released (underGuard_plans fun s => (PlansKept.of_frame (recoverHop_frame p s)).trans (settleWork_plans _ _)) e
  case breakDetected m => exact released (underGuard_plans fun s => (breakChain_plans s).trans (settleWork_plans m _)) e
  case quietCountComplete p => exact released (underGuard_plans fun s => .of_frame (leaveJoining_frame p s)) e
  case resyncEntry =>
    exact released (underGuard_plans fun s => .of_frame ((moveEntries_frame s).trans (ensureResync_frame _))) e
  case prepareTimeout m => exact released (underGuard_plans fun s => (abandon_plans _ s).trans (settleWork_plans m _)) e
  case settleEnd m => exact released (underGuard_plans fun s => (settleEnd_plans s).trans (settleWork_plans m _)) e
  all_goals exact exec_plans_of_hostPort rfl e

/-- Settles O57: a batch's next plan is the validated one, which Lane Placement keeps in order (`validate_ok`); every other
operation leaves the two plans, makes the next one active, or gives one up. -/
theorem planLanesKeptApart : Obligations.PlanLanesKeptApart := by
  unfold Obligations.PlanLanesKeptApart
  intro s t hs e
  unfold step at e
  split at e
  · cases e; exact hs
  · exact exec_plans _ e hs

end Sys2Proof.Machine


/-! ### One commit entry per port, operation by operation (R53) -/

namespace Sys2Proof.Machine

/-- A batch in PREPARE or COUNTDOWN: its drafts are ACTIVE (R53, R61). -/
def SwitchEngine.carries (x : SwitchEngine) (b : Batch) : Prop :=
  (x.phase = .prepare ∨ x.phase = .countdown) ∧ x.batch = some b

theorem not_carries_of_phase {x : SwitchEngine} (h : x.phase = .idle ∨ x.phase = .settle) (b : Batch) : ¬x.carries b := by
  rintro ⟨hp, -⟩
  rcases h with e | e <;> rw [e] at hp <;> exact hp.elim nofun nofun

theorem commitLaw_iff (s : State) :
    s.commitLaw ↔ (s.commits.map CommitEntry.port).Nodup
      ∧ (∀ p, (s.draft p).state = .queued ↔ p ∈ s.commits.map CommitEntry.port)
      ∧ ∀ b, s.switch.carries b → ∀ x ∈ b.commits, (s.draft x.1).state = .active := by
  simp only [State.commitLaw, SwitchEngine.carries, and_imp]
  exact and_congr_right fun _ => and_congr_right fun _ =>
    ⟨fun h b hp hb => h hp b hb, fun h hp b hb => h b hp hb⟩

theorem queued_iff_mem_ports {s : State} (h : s.commitLaw) (p : Port) :
    (s.draft p).state = .queued ↔ p ∈ s.commits.map CommitEntry.port := by
  obtain ⟨-, queued, -⟩ := h
  exact queued p

theorem active_of_carried {s : State} (h : s.commitLaw) {b : Batch} (hb : s.switch.carries b) {x : Port × Nat}
    (hx : x ∈ b.commits) : (s.draft x.1).state = .active := by
  obtain ⟨-, -, active⟩ := (commitLaw_iff s).1 h
  exact active b hb x hx

/-- What the law speaks of stands: the commit queue and the QUEUED drafts stay, no batch begins, and no ACTIVE draft is let
go. -/
structure CommitsStand (s t : State) : Prop where
  commits : t.commits = s.commits
  queued : ∀ p, (t.draft p).state = .queued ↔ (s.draft p).state = .queued
  carries : ∀ b, t.switch.carries b → s.switch.carries b
  active : ∀ p, (s.draft p).state = .active → (t.draft p).state = .active

namespace CommitsStand

theorem refl (s : State) : CommitsStand s s := ⟨rfl, fun _ => .rfl, fun _ => id, fun _ => id⟩

theorem trans {s t u : State} (a : CommitsStand s t) (b : CommitsStand t u) : CommitsStand s u :=
  ⟨b.commits.trans a.commits, fun p => (b.queued p).trans (a.queued p), fun x h => a.carries x (b.carries x h),
    fun p h => b.active p (a.active p h)⟩

theorem foldl {β : Type} {f : State → β → State} (h : ∀ s x, CommitsStand s (f s x)) (l : List β) (s : State) :
    CommitsStand s (l.foldl f s) := foldl_frame .refl .trans h l s

theorem of_eq {s t : State} (hd : t.drafts = s.drafts) (hc : t.commits = s.commits) (hs : t.switch = s.switch) :
    CommitsStand s t := by
  have draft (p : Port) : t.draft p = s.draft p := congrArg (·.get p) hd
  exact ⟨hc, fun p => by rw [draft], fun b h => hs ▸ h, fun p h => by rwa [draft]⟩

theorem of_frame {s t : State} (f : ChainFrame s t) : CommitsStand s t := of_eq f.drafts f.commits f.switch

theorem of_router {s t : State} (f : RouterFrame s t) : CommitsStand s t := of_frame f.toChainFrame

theorem setPort (s : State) (p : Port) (c : PortContext) : CommitsStand s (s.setPort p c) := of_eq rfl rfl rfl

theorem setCycle (s : State) (x : CycleEngine) : CommitsStand s (s.setCycle x) := of_eq rfl rfl rfl

theorem setFetch (s : State) (x : FetchUnit) : CommitsStand s (s.setFetch x) := of_eq rfl rfl rfl

theorem setRouter (s : State) (p : Port) (r : RouterPort) : CommitsStand s (s.setRouter p r) := of_eq rfl rfl rfl

theorem setRemoteQueue (s : State) (p : Port) (l : List RemoteRequest) : CommitsStand s (s.setRemoteQueue p l) :=
  of_eq rfl rfl rfl

theorem setOutstanding (s : State) (o : Option Outstanding) : CommitsStand s (s.setOutstanding o) := of_eq rfl rfl rfl

theorem setSwitch (s : State) {x : SwitchEngine} (h : ∀ b, x.carries b → s.switch.carries b) :
    CommitsStand s (s.setSwitch x) := ⟨rfl, fun _ => .rfl, h, fun _ => id⟩

/-- A draft that is neither QUEUED nor ACTIVE, replaced by one that is not QUEUED. -/
theorem setDraft (s : State) {p : Port} {d : Draft} (hq : (s.draft p).state ≠ .queued) (ha : (s.draft p).state ≠ .active)
    (hd : d.state ≠ .queued) : CommitsStand s (s.setDraft p d) := by
  refine ⟨rfl, fun q => ?_, fun _ => id, fun q h => ?_⟩ <;> rw [State.draft_setDraft] <;> split
  · next e => rw [e]; exact iff_of_false hd hq
  · rfl
  · next e => rw [e] at h; exact absurd h ha
  · exact h

theorem discardDraft (s : State) {p : Port} (hq : (s.draft p).state ≠ .queued) (ha : (s.draft p).state ≠ .active) :
    CommitsStand s (s.discardDraft p) := by
  have freed := freeOpened_frame s (s.draft p).entries
  have same : (s.freeOpened (s.draft p).entries).draft p = s.draft p := congrArg (·.get p) freed.drafts
  exact (of_frame freed.toChainFrame).trans (setDraft _ (by rwa [same]) (by rwa [same]) nofun)

end CommitsStand

/-- R53 holds of the second head when it holds of the first. -/
def CommitsKept (s t : State) : Prop := s.commitLaw → t.commitLaw

theorem CommitsStand.kept {s t : State} (f : CommitsStand s t) : CommitsKept s t := fun h => by
  obtain ⟨nodup, queued, active⟩ := (commitLaw_iff s).1 h
  refine (commitLaw_iff t).2 ⟨by rwa [f.commits], fun p => ?_, fun b hb x hx => f.active _ (active b (f.carries b hb) x hx)⟩
  rw [f.queued, f.commits]
  exact queued p

namespace CommitsKept

theorem refl (s : State) : CommitsKept s s := id

theorem trans {s t u : State} (a : CommitsKept s t) (b : CommitsKept t u) : CommitsKept s u := b ∘ a

theorem foldl {β : Type} {f : State → β → State} (h : ∀ s x, CommitsKept s (f s x)) (l : List β) (s : State) :
    CommitsKept s (l.foldl f s) := foldl_frame .refl .trans h l s

end CommitsKept

/-- The end of a batch in flight: the commit queue and the QUEUED drafts stay. -/
theorem commitLaw_of_landed {s t : State} (h : s.commitLaw) (hc : t.commits = s.commits)
    (hq : ∀ p, (t.draft p).state = .queued ↔ (s.draft p).state = .queued) (hb : ∀ b, ¬t.switch.carries b) :
    t.commitLaw := by
  obtain ⟨nodup, queued, -⟩ := h
  refine (commitLaw_iff t).2 ⟨by rwa [hc], fun p => ?_, fun b h => absurd h (hb b)⟩
  rw [hq, hc]
  exact queued p

/-- R53: the draft of a batch in flight is not QUEUED. -/
theorem carried_not_queued {s : State} (h : s.commitLaw) {b : Batch} (hb : s.switch.carries b) {p : Port}
    (hp : p ∈ b.commits.map Prod.fst) : (s.draft p).state ≠ .queued := by
  obtain ⟨x, hx, rfl⟩ := List.mem_map.1 hp
  rw [active_of_carried h hb hx]
  nofun

/-! The commit queue (R51, R52, R54) -/

theorem mem_ports_filter_ne (l : List CommitEntry) (p q : Port) :
    q ∈ (l.filter fun c => c.port != p).map CommitEntry.port ↔ q ≠ p ∧ q ∈ l.map CommitEntry.port := by
  simp only [List.mem_map, List.mem_filter, bne_iff_ne]
  constructor
  · rintro ⟨c, ⟨hc, hp⟩, rfl⟩
    exact ⟨hp, c, hc, rfl⟩
  · rintro ⟨hp, c, hc, rfl⟩
    exact ⟨c, ⟨hc, hp⟩, rfl⟩

/-- R52, R54: the entry of a QUEUED draft leaves the queue, and the draft is QUEUED no longer. -/
theorem commitLaw_of_dropped {s t : State} {p : Port} (h : s.commitLaw) (hp : (s.draft p).state = .queued)
    (hc : t.commits = s.commits.filter fun c => c.port != p) (hd : (t.draft p).state ≠ .queued)
    (ho : ∀ q, q ≠ p → t.draft q = s.draft q) (hs : t.switch = s.switch) : t.commitLaw := by
  obtain ⟨nodup, queued, active⟩ := (commitLaw_iff s).1 h
  refine (commitLaw_iff t).2 ⟨?_, fun q => ?_, fun b hb x hx => ?_⟩
  · rw [hc]
    exact nodup.sublist (List.filter_sublist.map _)
  · rw [hc, mem_ports_filter_ne]
    by_cases e : q = p
    · rw [e]; exact iff_of_false hd fun h => h.1 rfl
    · rw [ho q e, queued q]; exact (and_iff_right e).symm
  · have act := active b (hs ▸ hb) x hx
    have e : x.1 ≠ p := fun e => by rw [e, hp] at act; cases act
    rwa [ho x.1 e]

/-- R51: the commit of an OPEN draft joins the queue. -/
theorem enqueue_commitLaw {s : State} {p : Port} (f : CommitFlags) (hp : (s.draft p).state = .opened) (h : s.commitLaw) :
    (s.enqueue p f).commitLaw := by
  obtain ⟨nodup, queued, active⟩ := (commitLaw_iff s).1 h
  have draft (q : Port) : (s.enqueue p f).draft q =
      if q = p then { s.draft p with state := .queued, flags := some f } else s.draft q := State.draft_setDraft s p q _
  have ports : (s.enqueue p f).commits.map CommitEntry.port = s.commits.map CommitEntry.port ++ [p] := List.map_append
  have fresh : p ∉ s.commits.map CommitEntry.port := fun hm => by
    have := (queued p).2 hm
    rw [hp] at this
    cases this
  refine (commitLaw_iff _).2 ⟨?_, fun q => ?_, fun b hb x hx => ?_⟩
  · rw [ports]
    exact nodup.append (List.nodup_singleton p) (List.disjoint_singleton.2 fresh)
  · rw [ports, draft, List.mem_append, List.mem_singleton]
    split
    · next e => exact iff_of_true rfl (.inr e)
    · next e => rw [queued q]; exact (or_iff_left e).symm
  · have act := active b hb x hx
    have e : x.1 ≠ p := fun e => by rw [e, hp] at act; cases act
    rw [draft, if_neg e]
    exact act

/-! The formation of a batch (R58, R60, R61) -/

/-- R58: validation accepts or rejects every commit of the queue. -/
theorem validate_decides (s : State) {c : CommitEntry} (hc : c ∈ s.commits) :
    c ∈ s.validate.accepted ∨ c ∈ s.validate.rejected.map Prod.fst := by
  have step (v : Validation) (c d : CommitEntry) (h : d = c ∨ d ∈ v.accepted ∨ d ∈ v.rejected.map Prod.fst) :
      d ∈ (s.validateCommit s.marked v c).accepted ∨ d ∈ (s.validateCommit s.marked v c).rejected.map Prod.fst := by
    unfold State.validateCommit
    split <;> simp only [List.map_append, List.mem_append, List.map_cons, List.map_nil, List.mem_singleton] <;> tauto
  have key (l : List CommitEntry) (v : Validation) (h : c ∈ l ∨ c ∈ v.accepted ∨ c ∈ v.rejected.map Prod.fst) :
      c ∈ (l.foldl (s.validateCommit s.marked) v).accepted
        ∨ c ∈ (l.foldl (s.validateCommit s.marked) v).rejected.map Prod.fst := by
    induction l generalizing v with
    | nil => exact h.resolve_left List.not_mem_nil
    | cons d l ih =>
      refine ih _ ?_
      rw [List.mem_cons] at h
      have := step v d c
      tauto
  exact key s.commits _ (.inl hc)

/-- R60: the settings taken are all that changes of the Switch Engine. -/
theorem completeSettings_switch (v : Validation) (s : State) :
    (s.completeSettings v).switch = { s.switch with settings := v.settings } := by
  rw [State.completeSettings, (announceSettings_frame _ _ _).switch, (EnginesKept.foldl completeCommit_engines _ _).switch,
    takeSettings_eq]
  rfl

/-- R60: the draft of an accepted commit. -/
theorem draft_completeSettings_accepted {v : Validation} {s : State} {p : Port} (hp : p ∈ v.accepted.map CommitEntry.port) :
    (s.completeSettings v).draft p = Draft.empty := by
  have one (s : State) (c : CommitEntry) : (s.completeCommit c).draft p = if p = c.port then Draft.empty else s.draft p := by
    rw [State.draft, State.completeCommit, (notifySession_frame _ _ _ _).drafts]
    exact State.draft_setDraft s c.port p _
  have all (l : List CommitEntry) (s : State) (h : p ∈ l.map CommitEntry.port ∨ s.draft p = Draft.empty) :
      (l.foldl State.completeCommit s).draft p = Draft.empty := by
    induction l generalizing s with
    | nil => exact h.resolve_left List.not_mem_nil
    | cons c l ih =>
      refine ih _ ?_
      rw [one]
      rw [List.map_cons, List.mem_cons] at h
      by_cases e : p = c.port
      · exact .inr (if_pos e)
      · rw [if_neg e]; exact h.imp_left (·.resolve_left e)
  rw [State.draft, State.completeSettings, (announceSettings_frame _ _ _).drafts]
  exact all v.accepted _ (.inl hp)

/-- R60, R61: the draft of an accepted commit after the batch formation. -/
theorem draft_formBatch_accepted_state {s : State} {c : CommitEntry} (hc : c ∈ s.validate.accepted) :
    (s.formBatch.draft c.port).state = .active ∨ (s.formBatch.draft c.port).state = .empty := by
  have hp : c.port ∈ s.validate.accepted.map CommitEntry.port := List.mem_map_of_mem hc
  rw [formBatch_eq]
  split
  · rw [draft_handOver, if_pos hp]; exact .inl rfl
  · split
    · next h => rw [List.isEmpty_iff.1 h] at hc; cases hc
    · rw [draft_completeSettings_accepted hp]; exact .inr rfl

/-- R53: no draft stays QUEUED when the whole queue has been taken. -/
theorem formBatch_not_queued {s : State} (h : s.commitLaw) (p : Port) : (s.formBatch.draft p).state ≠ .queued := by
  by_cases hp : ∃ c ∈ s.validate.accepted, c.port = p
  · obtain ⟨c, hc, rfl⟩ := hp
    rcases draft_formBatch_accepted_state hc with e | e <;> rw [e] <;> nofun
  · have other : ∀ c ∈ s.validate.accepted, c.port ≠ p := fun c hc e => hp ⟨c, hc, e⟩
    rw [draft_formBatch other, draft_rejecting]
    split
    · nofun
    · next hr =>
      intro e
      obtain ⟨c, hc, rfl⟩ := List.mem_map.1 ((queued_iff_mem_ports h p).1 e)
      rcases validate_decides s hc with ha | ha
      · exact other c ha rfl
      · obtain ⟨y, hy, rfl⟩ := List.mem_map.1 ha
        exact hr (List.mem_map_of_mem hy)

/-- R61: the batch a formation sets in flight is that of the accepted commits, whose drafts are ACTIVE. -/
theorem formBatch_carries_active {s : State} (hidle : s.switch.phase = .idle) {b : Batch} (hb : s.formBatch.switch.carries b)
    {x : Port × Nat} (hx : x ∈ b.commits) : (s.formBatch.draft x.1).state = .active := by
  have still (t : State) (ht : t.switch.phase = .idle) : ¬t.switch.carries b :=
    not_carries_of_phase (.inl ht) b
  have idle : s.rejecting.switch.phase = .idle := by rw [(rejecting_engines s).switch, hidle]
  by_cases hn : needsSwitch s.switch.plan s.validate.work.plan = true
  · have hbatch := hb.2
    rw [formBatch_switch hn] at hbatch
    cases hbatch
    obtain ⟨c, hc, rfl⟩ := List.mem_map.1 hx
    exact (draft_formBatch_accepted hn hc).1
  · rw [formBatch_eq, if_neg hn] at hb
    split at hb
    · exact absurd hb (still _ idle)
    · exact absurd hb (still _ (by rw [completeSettings_switch]; exact idle))

theorem formIfDue_commits (s : State) : CommitsKept s s.formIfDue := fun h => by
  unfold State.formIfDue
  split
  · next due =>
    have idle : s.switch.phase = .idle := by
      simp only [State.batchDue, Bool.and_eq_true, beq_iff_eq] at due
      exact due.1.1
    refine (commitLaw_iff _).2 ⟨?_, fun p => ?_, fun b hb x hx => formBatch_carries_active idle hb hx⟩
    · rw [formBatch_commits]; exact List.nodup_nil
    · rw [formBatch_commits]; exact iff_of_false (formBatch_not_queued h p) List.not_mem_nil
  · exact h

/-! The switch (R63) -/

theorem switchCycle_commits (s : State) : CommitsKept s s.switchCycle := fun h => by
  unfold State.switchCycle
  split
  · next b hb =>
    split
    · next due =>
      have phase : s.switch.phase = .countdown := by
        simp only [State.switchDue, Bool.and_eq_true, beq_iff_eq] at due
        exact due.1
      have f := switchResults_frame s b (s.switchChanges b)
      refine commitLaw_of_landed h (f.commits.trans (by rw [switchChanges_eq])) (fun p => ?_) fun b' => ?_
      · rw [State.draft, f.drafts]
        refine Iff.trans (b := ((s.switchChanges b).draft p).state = .queued) .rfl ?_
        rw [draft_switchChanges]
        split
        · next hp => exact iff_of_false nofun (carried_not_queued h ⟨.inr phase, hb⟩ hp)
        · rfl
      · rw [f.switch, switchChanges_eq]
        exact not_carries_of_phase (.inr rfl) b'
    · exact h
  · exact h

/-- R63: a draft that a batch gives back is QUEUED no more than before. -/
theorem returnDraft_queued {s : State} {c : Port × Nat} {p : Port} (h : ((s.returnDraft c).draft p).state = .queued) :
    (s.draft p).state = .queued := by
  rw [draft_returnDraft] at h
  split at h
  · unfold Draft.returned at h
    split at h <;> cases h
  · exact h

theorem returnDrafts_queued {l : List (Port × Nat)} {s : State} {p : Port}
    (hp : p ∈ l.map Prod.fst → (s.draft p).state ≠ .queued) :
    ((l.foldl State.returnDraft s).draft p).state = .queued ↔ (s.draft p).state = .queued := by
  constructor
  · exact foldl_frame (R := fun s t : State => (t.draft p).state = .queued → (s.draft p).state = .queued) (fun _ => id)
      (fun a b => a ∘ b) (fun _ _ => returnDraft_queued) l s
  · intro h
    have same : (l.foldl State.returnDraft s).draft p = s.draft p :=
      foldl_frame_mem (R := fun s t : State => t.draft p = s.draft p) (fun _ => rfl) (fun a b => b.trans a)
        (fun s c hc => by
          rw [draft_returnDraft, if_neg]
          rintro rfl
          exact hp (List.mem_map_of_mem hc) h) s
    rwa [same]

theorem abandon_commits (w : AbandonReason) {s : State} (hp : s.switch.phase = .prepare) :
    CommitsKept s (s.abandon w) := fun h => by
  cases hb : s.switch.batch with
  | none => rw [State.abandon, hb]; exact h
  | some b =>
    refine commitLaw_of_landed h (abandon_frame w s).commits (fun p => ?_) fun b' => ?_
    · have start : (State.unmarkStales b.stale { s with streams := s.streams.map Stream.restored }).draft p = s.draft p := by
        rw [State.draft, (unmarkStales_frame _ _).drafts]; rfl
      rw [State.draft, (abandon_router hb w).drafts]
      refine (returnDrafts_queued fun hm => ?_).trans (by rw [start])
      rw [start]
      exact carried_not_queued h ⟨.inl hp, hb⟩ hm
    · rw [abandon_switch hb]
      exact not_carries_of_phase (.inl rfl) b'

theorem abandonOnLoss_commits (ps : List Nat) (s : State) : CommitsKept s (s.abandonOnLoss ps) := by
  unfold State.abandonOnLoss
  split
  · next hc => exact abandon_commits _ hc.1
  · exact .refl s

theorem settleEnd_stands (s : State) : CommitsStand s s.settleEnd :=
  (CommitsStand.of_frame (markAllUnsettled_frame s)).trans
    (.setSwitch _ fun b hb => absurd hb (not_carries_of_phase (.inl rfl) b))

/-- R72: PREPARE completes into COUNTDOWN, with the batch it began with. -/
theorem completed_carries {x : SwitchEngine} (hp : x.phase = .prepare) {b : Batch} (h : x.completed.carries b) : x.carries b :=
  ⟨.inl hp, (completed_keeps x).2.symm.trans h.2⟩

theorem readPrepare_commits (a : Arrival) {s : State} (hp : s.switch.phase = .prepare) : CommitsKept s (s.readPrepare a) := by
  unfold State.readPrepare
  split
  · exact .refl s
  · split
    · exact abandon_commits _ hp
    · exact (CommitsStand.setSwitch s fun b hb => completed_carries (x := s.switch.readPrepare a) hp hb).kept

theorem readSwitch_commits (a : Arrival) (s : State) : CommitsKept s (s.readSwitch a) := by
  unfold State.readSwitch
  split
  · exact .refl s
  · next hp => exact readPrepare_commits a hp
  · exact (CommitsStand.setSwitch s fun b => id).kept
  · have settling : CommitsStand s (s.setSwitch (s.switch.readSettle a)) := .setSwitch s fun b => id
    dsimp only
    split
    · exact (settling.trans (settleEnd_stands _)).kept
    · exact settling.kept

/-! Remote access and event fetch leave drafts and commits -/

theorem loseRemote_stands (ps : List Nat) (s : State) (p : Port) : CommitsStand s (s.loseRemote ps p) :=
  (CommitsStand.setRemoteQueue s p _).trans (.of_router (.foldl (failRemote_frame p _) _ _))

theorem answerRemote_stands (a : Arrival) (o : Outstanding) (s : State) : CommitsStand s (s.answerRemote a o) := by
  unfold State.answerRemote
  split
  · exact .of_router (remoteResult_frame s _ _ _)
  · split
    · exact .setRemoteQueue s _ _
    · exact .of_router (remoteResult_frame s _ _ _)

theorem readRemote_stands (a : Arrival) (s : State) : CommitsStand s (s.readRemote a) := by
  have taken : CommitsStand s (s.setOutstanding none) := .setOutstanding s none
  unfold State.readRemote
  split
  · split
    · exact taken
    · exact taken.trans (answerRemote_stands a _ _)
  · exact .refl s

theorem takeEvent_stands (p : Nat) (ans : Option Answer) (s : State) : CommitsStand s (s.takeEvent p ans) := by
  have unwanted : CommitsStand s (s.setFetch (s.fetch.unwant p)) := .setFetch s _
  unfold State.takeEvent
  split
  · dsimp only
    split
    · split
      · exact unwanted.trans (.of_router (raise_frame _ _))
      · exact unwanted
    · exact unwanted
  · exact .refl s

theorem answerFetch_stands (a : Arrival) (s : State) : CommitsStand s (s.answerFetch a) := by
  unfold State.answerFetch
  split
  · exact (CommitsStand.setFetch s _).trans (takeEvent_stands _ _ _)
  · exact .refl s

theorem readFetch_stands (a : Arrival) (s : State) : CommitsStand s (s.readFetch a) := by
  unfold State.readFetch State.readPending
  split
  · exact (answerFetch_stands a s).trans (.setFetch _ _)
  · exact answerFetch_stands a s

/-! The chain: losses abandon a switch, and what waits for the Switch Engine forms a batch -/

theorem settleWork_commits (m : Meet) (s : State) : CommitsKept s (s.settleWork m) := by
  cases m
  · exact ((CommitsStand.of_frame (moveEntries_frame s)).kept.trans (formIfDue_commits _)).trans
      (CommitsStand.of_frame (ensureResync_frame _)).kept
  · exact (formIfDue_commits s).trans
      (CommitsStand.of_frame ((moveEntries_frame _).trans (ensureResync_frame _))).kept

theorem reportLosses_commits (ps : List Nat) (s : State) : CommitsKept s (s.reportLosses ps) := by
  unfold State.reportLosses
  refine CommitsKept.trans ?_ (CommitsStand.foldl (loseRemote_stands ps) _ _).kept
  exact ((CommitsStand.of_frame (recompute_frame s).toChainFrame).kept.trans (abandonOnLoss_commits ps _)).trans
    (CommitsStand.setFetch _ _).kept

theorem losePositions_commits (ps : List Nat) (s : State) : CommitsKept s (s.losePositions ps) := by
  unfold State.losePositions
  split
  · exact .refl s
  · refine CommitsKept.trans (CommitsStand.trans ?_ (.foldl (fun s p => .of_router (raise_frame s _)) _ _)).kept
      (reportLosses_commits ps _)
    exact .of_frame (setChain_frame s _)

theorem breakChain_commits (s : State) : CommitsKept s s.breakChain :=
  (CommitsStand.of_frame (setChain_frame s _)).kept.trans (losePositions_commits _ _)

theorem applyBreak_commits (a : Arrival) (m : Meet) (s : State) : CommitsKept s (s.applyBreak a m) := by
  have counted : CommitsStand s (s.setChain (s.chain.countShort a.trail.reach)) := .of_frame (setChain_frame s _)
  unfold State.applyBreak
  dsimp only
  split
  · exact counted.kept.trans ((breakChain_commits _).trans (settleWork_commits m _))
  · exact counted.kept

theorem answerResync_commits (p : Nat) (ans : Option Answer) (s : State) : CommitsKept s (s.answerResync p ans) := by
  have failed : CommitsKept s (s.resyncFailed p) := by
    unfold State.resyncFailed
    split
    · exact (CommitsStand.of_frame (setChain_frame s _)).kept
    · exact losePositions_commits _ s
  unfold State.answerResync
  split
  · split
    · split
      · exact (CommitsStand.of_frame (resyncDone_frame p s)).kept
      · exact failed
    · exact .refl s
  · exact .refl s

theorem answerChain_commits (a : Arrival) (s : State) : CommitsKept s (s.answerChain a) := by
  unfold State.answerChain
  split
  · exact (CommitsStand.of_frame (answerSeek_frame _ _ s)).kept
  · exact (CommitsStand.of_frame (answerExtend_frame _ _ s)).kept
  · exact answerResync_commits _ _ s
  · exact (CommitsStand.of_frame (answerProbe_frame _ _ s)).kept
  all_goals exact .refl s

theorem readChain_commits (a : Arrival) (m : Meet) (s : State) : CommitsKept s (s.readChain a m) := by
  unfold State.readChain
  refine CommitsKept.trans ?_ (answerChain_commits a _)
  refine CommitsKept.trans ?_ (CommitsStand.of_frame (readEntries_frame a _)).kept
  exact (CommitsStand.of_frame (setChain_frame s _)).kept.trans (applyBreak_commits a m _)

/-! The trail arrival -/

theorem runReader_commits (a : Arrival) (m : Meet) (s : State) (r : Reader) : CommitsKept s (s.runReader a m r) := by
  cases r with
  | hop => exact (CommitsStand.of_frame (readHops_frame a s)).kept.trans (settleWork_commits m _)
  | chain => exact (readChain_commits a m s).trans (settleWork_commits m _)
  | switch => exact (readSwitch_commits a s).trans (settleWork_commits m _)
  | fetch => exact (readFetch_stands a s).kept.trans (settleWork_commits m _)
  | remote => exact (readRemote_stands a s).kept.trans (settleWork_commits m _)

theorem arrive_commits (up : Option UpPass) (o : TrailOrder) (s : State) : CommitsKept s (s.arrive up o) := by
  unfold State.arrive
  split
  · exact (CommitsStand.setCycle s _).kept.trans (.foldl (runReader_commits _ _) _ _)
  · exact .refl s

theorem openCycle_commits (s : State) : CommitsKept s s.openCycle := by
  unfold State.openCycle
  split
  · exact .refl s
  · exact (arrive_commits none TrailOrder.default s).trans (CommitsStand.setCycle _ _).kept

/-! Session ends and the acts of a cycle start -/

theorem draft_discardDraft (s : State) (p q : Port) :
    (s.discardDraft p).draft q = if q = p then Draft.empty else s.draft q := by
  rw [State.discardDraft, State.draft_setDraft]
  split
  · rfl
  · exact congrArg (·.get q) (freeOpened_frame s _).drafts

/-- R54: the draft of an ended session goes with its commit entry, or stays ACTIVE in its batch. -/
theorem settleDraft_commits (p : Port) (s : State) : CommitsKept s (s.settleDraft p) := by
  unfold State.settleDraft
  split
  · exact .refl s
  · next e => exact (CommitsStand.discardDraft s (by rw [e]; nofun) (by rw [e]; nofun)).kept
  · next e =>
    have f := discardDraft_frame (s.dropCommit p) p
    refine fun h => commitLaw_of_dropped h e f.commits ?_ (fun q hq => ?_) (EnginesKept.discardDraft _ p).switch
    · rw [draft_discardDraft, if_pos rfl]; nofun
    · rw [draft_discardDraft, if_neg hq]; rfl
  · next e =>
    refine CommitsStand.kept ⟨rfl, fun q => ?_, fun _ => id, fun q h => ?_⟩ <;> rw [State.draft_setDraft] <;> split
    · next hq => rw [hq]
    · rfl
    · exact e
    · exact h

theorem endSession_commits (p : Port) (w : EndReason) (s : State) : CommitsKept s (s.endSession p w) := by
  have opened : CommitsStand s (s.setPort p ((s.port p).ended w)) := .setPort s p _
  have ended (t : State) : CommitsStand t (((t.orphanStreams p (s.port p).session).endRemote p).setRouter p RouterPort.reset) :=
    .of_eq rfl rfl rfl
  exact (opened.kept.trans (settleDraft_commits p _)).trans (ended _).kept

theorem expireLease_commits (p : Port) (s : State) : CommitsKept s (s.expireLease p) :=
  (endSession_commits p _ s).trans (formIfDue_commits _)

theorem tickLease_commits (p : Port) (s : State) : CommitsKept s (s.tickLease p) := by
  rcases tickLease_cases p s with ⟨e, -⟩ | ⟨n, -, -, -, e⟩ | ⟨e, -⟩ <;> rw [e]
  · exact expireLease_commits p s
  · exact (CommitsStand.setPort s p _).kept
  · exact .refl s

theorem headChecks_stands (s : State) : CommitsStand s s.headChecks :=
  .foldl (fun s p => (CommitsStand.setRemoteQueue s p _).trans (.of_router (.foldl (failRemote_frame p _) _ _))) allPorts s

/-- R88, R142: of the clients only the switch client touches the Switch Engine, and it leaves the batch in flight. -/
theorem fill_stands (c : Option Client) (s : State) : CommitsStand s (s.fill c).1 := by
  unfold State.fill
  split
  · exact .refl s
  · obtain ⟨-, -, -, -, phase, batch, -⟩ := switch_send_keeps s.switch
    exact .setSwitch s fun b hb => ⟨phase ▸ hb.1, batch ▸ hb.2⟩
  · exact .of_frame (sendChain_frame _ s)
  · unfold State.sendFetch; split <;> exact .of_eq rfl rfl rfl
  · unfold State.sendRemote; split <;> exact .of_eq rfl rfl rfl

theorem grantSlot_stands (s : State) : CommitsStand s s.grantSlot := by
  unfold State.grantSlot State.grantTo
  refine ((headChecks_stands s).trans ?_).trans (.of_frame (tickBringUp_frame _))
  have recorded (t : State) (c : Option Client) (m : ControlMsg) : CommitsStand t (t.putMessage c m) := .of_eq rfl rfl rfl
  exact (fill_stands _ s.headChecks).trans (recorded _ _ _)

/-- R74: the lead block's decrease of the countdown leaves the batch in flight. -/
theorem stepCountdown_carries {x : SwitchEngine} {b : Batch} (h : x.stepCountdown.carries b) : x.carries b := by
  unfold SwitchEngine.stepCountdown at h
  split at h <;> exact h

theorem sendLead_stands (m : Tab Sample 64) (s : State) : CommitsStand s (s.firstBringUp.sendLead m) := by
  refine CommitsStand.trans (t := s.firstBringUp) ?_ ⟨rfl, fun _ => .rfl, fun _ => stepCountdown_carries, fun _ => id⟩
  unfold State.firstBringUp
  split <;> exact .of_eq rfl rfl rfl

theorem runAct_commits (m : Tab Sample 64) (s : State) (a : CycleAct) : CommitsKept s (s.runAct m a) := by
  cases a with
  | lease p => exact tickLease_commits p s
  | switch => exact switchCycle_commits s
  | probe => exact (CommitsStand.of_frame (tickProbe_frame s)).kept
  | slot => exact (grantSlot_stands s).kept
  | lead => exact (sendLead_stands m s).kept

theorem nextCycle_commits (m : Tab Sample 64) (o : List CycleAct) (s : State) : CommitsKept s (s.nextCycle m o) := by
  unfold State.nextCycle State.makeActs
  exact ((openCycle_commits s).trans (.foldl (runAct_commits m) _ _)).trans (CommitsStand.setCycle _ _).kept

theorem actAlone_commits {due : State → Bool} {a : CycleAct} {act : State → State} (h : ∀ s, CommitsKept s (act s))
    (s : State) : CommitsKept s (s.actAlone due a act) := by
  obtain ⟨-, -, e⟩ | ⟨-, e⟩ := actAlone_cases due a act s <;> rw [e]
  · exact ((openCycle_commits s).trans (h _)).trans (CommitsStand.setCycle _ _).kept
  · exact .refl s

/-- An event under its condition keeps the law when it does where the condition holds. -/
theorem underGuard_commits {c : State → Bool} {f : State → State} (h : ∀ s, c s = true → CommitsKept s (f s))
    (s : State) : CommitsKept s (s.underGuard c f) := by
  unfold State.underGuard
  split
  · next hc => exact h s hc
  · exact .refl s

end Sys2Proof.Machine


/-! ### Requests and commands: one commit entry per port (R53) -/

namespace Sys2Proof.Machine

/-- An owner of requests that leaves the commit queue, the QUEUED drafts and the batch in flight. -/
def LeavesCommits {α : Type} (owner : α → State → State × Response) : Prop := ∀ a s, CommitsStand s (owner a s).1

theorem takeAttach_stands (p : Port) : LeavesCommits (State.takeAttach p) := fun _ s => by
  unfold State.takeAttach
  split
  · exact .refl s
  · exact .setPort s p _

/-- Table 3-4, checks 2 and 3: a draft that can take an entry is neither QUEUED nor ACTIVE. -/
theorem state_of_closedTo_eq_none {d : Draft} (h : d.closedTo = none) : d.state ≠ .queued ∧ d.state ≠ .active := by
  unfold Draft.closedTo at h
  split at h
  · cases h
  · next hd => exact not_or.1 hd

/-- R44: an entry staged on a draft that can take one. -/
theorem stage_stands (p : Port) (e : DraftEntry) {s : State} (h : (s.draft p).closedTo = none) : CommitsStand s (s.stage p e) :=
  .setDraft s (state_of_closedTo_eq_none h).1 (state_of_closedTo_eq_none h).2 nofun

theorem takeDraftOpen_stands (p : Port) : LeavesCommits (State.takeDraftOpen p) := fun _ s => by
  unfold State.takeDraftOpen
  split
  · exact .refl s
  · split
    · exact .refl s
    · next hd =>
      split
      · exact .refl s
      · split
        · exact .refl s
        · exact (CommitsStand.of_frame (setStream_frame s _ _).toChainFrame).trans (stage_stands p _ hd)

theorem takeDraftClose_stands (p : Port) : LeavesCommits (State.takeDraftClose p) := fun _ s => by
  unfold State.takeDraftClose
  split
  · exact .refl s
  · split
    · exact .refl s
    · next hd =>
      split
      · exact .refl s
      · exact stage_stands p _ hd

theorem takeDraftResize_stands (p : Port) : LeavesCommits (State.takeDraftResize p) := fun _ s => by
  unfold State.takeDraftResize
  split
  · split
    · exact .refl s
    · next hd =>
      split
      · exact .refl s
      · split
        · exact .refl s
        · exact stage_stands p _ hd
  · exact .refl s

theorem takeDraftSet_stands (p : Port) : LeavesCommits (State.takeDraftSet p) := fun _ s => by
  unfold State.takeDraftSet
  split
  · exact .refl s
  · split
    · exact .refl s
    · next hd => exact stage_stands p _ hd

/-- R48: an entry goes only from a draft that is neither QUEUED nor ACTIVE. -/
theorem takeDraftDrop_stands (p : Port) : LeavesCommits (State.takeDraftDrop p) := fun _ s => by
  unfold State.takeDraftDrop
  split
  · exact .refl s
  · split
    · exact .refl s
    · next hd =>
      obtain ⟨hq, ha⟩ := not_or.1 hd
      split
      · exact .refl s
      · next i _ e _ =>
        have freed := freeOpened_frame s [e]
        have same : (s.freeOpened [e]).draft p = s.draft p := congrArg (·.get p) freed.drafts
        refine (CommitsStand.of_frame freed.toChainFrame).trans (.setDraft _ (by rwa [same]) (by rwa [same]) ?_)
        unfold Draft.remove
        split
        · nofun
        · exact hq

theorem takeDraftClear_stands (p : Port) : LeavesCommits (State.takeDraftClear p) := fun _ s => by
  unfold State.takeDraftClear
  split
  · exact .refl s
  · exact .refl s
  · exact .refl s
  · next e => exact .discardDraft s (by rw [e]; nofun) (by rw [e]; nofun)

theorem takeDraftView_stands (p : Port) : LeavesCommits (State.takeDraftView p) := fun _ s => by
  unfold State.takeDraftView
  split <;> exact .refl s

theorem takeCommit_commits (p : Port) (b : Byte) (s : State) : CommitsKept s (s.takeCommit p b).1 := by
  unfold State.takeCommit
  split
  · exact .refl s
  · split
    · next e => exact enqueue_commitLaw _ e
    all_goals exact .refl s

theorem takeWithdraw_commits (p : Port) (a : Unit) (s : State) : CommitsKept s (s.takeWithdraw p a).1 := by
  unfold State.takeWithdraw
  split
  · next e =>
    refine fun h => commitLaw_of_dropped h e rfl ?_ (fun q hq => ?_) rfl
    · rw [State.draft_setDraft, if_pos rfl]; nofun
    · rw [State.draft_setDraft, if_neg hq]; rfl
  all_goals exact .refl s

theorem takeStreamInfo_stands : LeavesCommits State.takeStreamInfo := fun _ s => by
  unfold State.takeStreamInfo
  split <;> exact .refl s

theorem takeListStreams_stands : LeavesCommits State.takeListStreams := fun _ s => by
  unfold State.takeListStreams
  split <;> exact .refl s

theorem takeChainInfo_stands : LeavesCommits State.takeChainInfo := fun _ s => by
  unfold State.takeChainInfo
  repeat' split
  all_goals exact .refl s

theorem takeRemote_stands (p : Port) : LeavesCommits (State.takeRemote p) := fun _ s => by
  unfold State.takeRemote
  split
  · exact .refl s
  · split
    · exact .refl s
    · split
      · exact .refl s
      · split
        · exact .refl s
        · exact .setRemoteQueue s p _

theorem takeSubscribe_stands (p : Port) : LeavesCommits (State.takeSubscribe p) := fun _ s => by
  unfold State.takeSubscribe
  split
  · exact .refl s
  · exact .setRouter s p _

theorem takeReadQueue_stands (p : Port) : LeavesCommits (State.takeReadQueue p) := fun _ s => by
  unfold State.takeReadQueue
  split
  · exact .refl s
  · exact .setRouter s p _

/-- R121: a restart is accepted only with the commit queue empty and the Switch Engine IDLE, where R53 leaves no draft QUEUED
and no batch in flight. -/
theorem takeChainRestart_commits (p : Port) (a : Unit) (s : State) : CommitsKept s (s.takeChainRestart p a).1 := fun h => by
  unfold State.takeChainRestart
  split
  · exact h
  · next free =>
    obtain ⟨idle, noCommits⟩ := not_or.1 free
    split
    · exact h
    · have f := restartChain_router p s
      have started : StreamFrame s (allHandles.foldl (State.restartStream p) s) := .foldl (restartStream_frame p) _ _
      dsimp only
      generalize s.restartChain p = t at f ⊢
      generalize allHandles.foldl (State.restartStream p) s = u at f started
      refine commitLaw_of_landed h (f.commits.trans started.commits) (fun q => ?_) fun b => ?_
      · have draft : t.draft q = if q = p then Draft.empty else s.draft q := by
          rw [State.draft, f.drafts]
          refine (State.draft_setDraft u p q _).trans ?_
          rw [State.draft, started.drafts]
          rfl
        have unqueued : (s.draft p).state ≠ .queued := fun e => by
          have := (queued_iff_mem_ports h p).1 e
          rw [not_not.1 noCommits] at this
          cases this
        rw [draft]
        split
        · next e => subst e; exact iff_of_false (by decide) unqueued
        · rfl
      · have phase : t.switch.phase = .idle := by rw [f.switch]; exact not_not.1 idle
        exact not_carries_of_phase (.inl phase) b

/-! The request frame -/

theorem requestThen_commits {α : Type} {open? : Bool} {p : Port} {b : Sized α} {owner : α → State → State × Response}
    {after : State → State} (h : ∀ a s, CommitsKept s (owner a s).1) (ha : ∀ s, CommitsKept s (after s)) (s : State) :
    CommitsKept s (s.requestThen open? p b owner after) :=
  requestThen_rel .refl .trans (fun s p c => (CommitsStand.setPort s p c).kept) h ha s

theorem request_commits {α : Type} {open? : Bool} {p : Port} {b : Sized α} {owner : α → State → State × Response}
    (h : LeavesCommits owner) (s : State) : CommitsKept s (s.request open? p b owner) :=
  requestThen_commits (fun a s => (h a s).kept) .refl s

theorem refuse_stands (p : Port) (st : Status) (s : State) : CommitsStand s (s.refuse p st) := by
  unfold State.refuse
  split <;> exact .setPort s p _

/-- R53 at a transaction of a host port. -/
theorem exec_commits_of_hostPort {c : Instr} {p : Port} (hc : hostPort c = some p) {s t : State} (e : exec c s = .next t) :
    CommitsKept s t := by
  have released {f : State → State} (h : ∀ s, CommitsKept s (f s)) (e : s.whenReleased f = .next t) : CommitsKept s t :=
    whenReleased_keeps .refl h e
  cases c
  case frameError q _ => exact released (fun s => (refuse_stands q _ s).kept) e
  case badRequest q _ _ => exact released (fun s => (refuse_stands q _ s).kept) e
  case responseRead q n => exact released (fun s => (CommitsStand.setPort s q ((s.port q).readOut n)).kept) e
  case attach q _ => exact released (request_commits (takeAttach_stands q)) e
  case detach q _ => exact released (requestThen_commits (fun _ => endSession_commits q _) formIfDue_commits) e
  case portStatus q _ => exact released (request_commits fun _ => .refl) e
  case draftOpen q _ => exact released (request_commits (takeDraftOpen_stands q)) e
  case draftClose q _ => exact released (request_commits (takeDraftClose_stands q)) e
  case draftResize q _ => exact released (request_commits (takeDraftResize_stands q)) e
  case draftSet q _ => exact released (request_commits (takeDraftSet_stands q)) e
  case draftDrop q _ => exact released (request_commits (takeDraftDrop_stands q)) e
  case draftClear q _ => exact released (request_commits (takeDraftClear_stands q)) e
  case draftView q _ => exact released (request_commits (takeDraftView_stands q)) e
  case commit q _ => exact released (requestThen_commits (takeCommit_commits q) formIfDue_commits) e
  case withdraw q _ => exact released (requestThen_commits (takeWithdraw_commits q) .refl) e
  case streamInfo q _ => exact released (request_commits takeStreamInfo_stands) e
  case listStreams q _ => exact released (request_commits takeListStreams_stands) e
  case planInfo q _ => exact released (request_commits fun _ => .refl) e
  case chainInfo q _ => exact released (request_commits takeChainInfo_stands) e
  case chainRestart q _ => exact released (requestThen_commits (takeChainRestart_commits q) .refl) e
  case remoteRead q _ => exact released (request_commits fun _ => takeRemote_stands q _) e
  case remoteWrite q _ => exact released (request_commits fun _ => takeRemote_stands q _) e
  case subscribe q _ => exact released (request_commits (takeSubscribe_stands q)) e
  case readQueue q _ => exact released (request_commits (takeReadQueue_stands q)) e
  all_goals cases hc

theorem reset_commitLaw : State.reset.commitLaw := by
  obtain ⟨-, -, -, law, -⟩ := resetMeetsLaws
  exact law

/-- R53 at every command. -/
theorem exec_commits (c : Instr) {s t : State} (e : exec c s = .next t) : CommitsKept s t := by
  have released {f : State → State} (h : ∀ s, CommitsKept s (f s)) (e : s.whenReleased f = .next t) : CommitsKept s t :=
    whenReleased_keeps .refl h e
  have guarded {g : State → Bool} {f : State → State} (h : ∀ s, g s = true → CommitsKept s (f s))
      (e : s.whenReleased (State.underGuard g f) = .next t) : CommitsKept s t := released (underGuard_commits h) e
  cases c
  case deviceReset => cases e; exact fun _ => reset_commitLaw
  case resetRelease => cases e; exact (CommitsStand.of_eq rfl rfl rfl).kept
  case cycleStart m o => exact released (nextCycle_commits m o) e
  case trailArrival up o => exact released (arrive_commits (some up) o) e
  case receiveWindowClose o => exact released (arrive_commits none o) e
  case leaseExpiry p => exact released (actAlone_commits (expireLease_commits p)) e
  case probeDue => exact released (actAlone_commits fun s => (CommitsStand.of_frame (tickProbe_frame s)).kept) e
  case bringupSeek => exact released (actAlone_commits fun s => (grantSlot_stands s).kept) e
  case switchCycle => exact released (actAlone_commits switchCycle_commits) e
  case batchFormation => exact released formIfDue_commits e
  case isolationRecovery p =>
    exact guarded (fun s _ => (CommitsStand.of_frame (recoverHop_frame p s)).kept.trans (settleWork_commits _ _)) e
  case breakDetected m => exact guarded (fun s _ => (breakChain_commits s).trans (settleWork_commits m _)) e
  case quietCountComplete p => exact guarded (fun s _ => (CommitsStand.of_frame (leaveJoining_frame p s)).kept) e
  case resyncEntry =>
    exact guarded (fun s _ => (CommitsStand.of_frame ((moveEntries_frame s).trans (ensureResync_frame _))).kept) e
  case prepareTimeout m =>
    exact guarded (fun s hs => (abandon_commits _ ((prepareExpired_iff s).1 hs).1).trans (settleWork_commits m _)) e
  case settleEnd m => exact guarded (fun s _ => (settleEnd_stands s).kept.trans (settleWork_commits m _)) e
  all_goals exact exec_commits_of_hostPort rfl e

/-- Settles O56: a commit entry comes with its draft QUEUED and goes with it (`enqueue_commitLaw`, `commitLaw_of_dropped`), a
batch takes the whole queue (`formIfDue_commits`) and its drafts stay ACTIVE until it ends (`commitLaw_of_landed`). -/
theorem commitQueueKept : Obligations.CommitQueueKept := by
  unfold Obligations.CommitQueueKept
  intro s t hs e
  unfold step at e
  split at e
  · cases e; exact hs
  · exact exec_commits _ e hs

end Sys2Proof.Machine


/-! ### Requests to the draft of a port (R44, R46 to R52) -/

namespace Sys2Proof.Machine

/-- An owner that accepts, where the request sets nothing off. -/
theorem request_accepted {α : Type} {p : Port} {a : α} {owner : α → State → State × Response} {s t : State} {r : Response}
    (hs : s.serves p) (h : owner a s = (t, r)) (hr : r.status.accepts = true) :
    s.whenReleased (State.request false p (.sized a) owner) = .next (t.accepted p r) :=
  requestThen_accepted false p a owner id s t r hs h hr

/-- An owner that refuses, where the request sets nothing off. -/
theorem request_refused {α : Type} {p : Port} {a : α} {owner : α → State → State × Response} {s : State} {st : Status}
    (hs : s.serves p) (h : owner a s = (s, reply st)) (hr : st.accepts = false) :
    s.whenReleased (State.request false p (.sized a) owner) = .next (s.refused p st) :=
  requestThen_refused false p a owner id s st hs h hr

/-! Operand fields (R46, R48, R51) -/

theorem indexOf_eq_some {b : Byte} (e : b.toNat ≤ 7) : indexOf b = some b.toNat := if_pos e

theorem indexOf_eq_none {b : Byte} (e : 8 ≤ b.toNat) : indexOf b = none := if_neg (by omega)

theorem lanesOf_eq_some {b : Byte} (e1 : 1 ≤ b.toNat) (e2 : b.toNat ≤ 16) : lanesOf b = some b.toNat := if_pos ⟨e1, e2⟩

theorem lanesOf_eq_none {b : Byte} (e : b.toNat = 0 ∨ 17 ≤ b.toNat) : lanesOf b = none := if_neg (by omega)

theorem flagsOf_eq_none {b : Byte} (e : 2 ≤ b.toNat) : flagsOf b = none := by
  unfold flagsOf
  split
  · omega
  · omega
  · rfl

theorem flagsOf_eq_some {b : Byte} {f : CommitFlags} (e : (b.toNat = 0 ∧ f = .none) ∨ (b.toNat = 1 ∧ f = .repack)) :
    flagsOf b = some f := by
  rcases e with ⟨h, rfl⟩ | ⟨h, rfl⟩ <;> simp only [flagsOf, h]

theorem exists_flagsOf {b : Byte} (e : b.toNat ≤ 1) : ∃ f, flagsOf b = some f := by
  rcases Nat.le_one_iff_eq_zero_or_eq_one.1 e with h | h
  · exact ⟨_, flagsOf_eq_some (.inl ⟨h, rfl⟩)⟩
  · exact ⟨_, flagsOf_eq_some (.inr ⟨h, rfl⟩)⟩

/-! Removing entries (R48, R49) -/

theorem freeOpened_of_opens {s : State} {e : DraftEntry} {h : Handle} (he : e.opens? = some h) :
    s.freeOpened [e] = s.setStream h Stream.free := by
  simp [State.freeOpened, he, State.freeStream]

theorem freeOpened_of_opens_none {s : State} {e : DraftEntry} (he : e.opens? = none) : s.freeOpened [e] = s := by
  simp [State.freeOpened, he]

theorem draft_remove_eq (d : Draft) (i : Nat) :
    d.remove i = if d.entries.eraseIdx i = [] then Draft.empty else { d with entries := d.entries.eraseIdx i } := by
  simp only [Draft.remove, List.isEmpty_iff]

/-- R49: a discarded draft changes streams and drafts only. -/
theorem discardDraft_only (s : State) (p : Port) :
    s.discardDraft p = { s with streams := (s.discardDraft p).streams, drafts := (s.discardDraft p).drafts } := by
  have freed (l : List Handle) : l.foldl State.freeStream s = { s with streams := (l.foldl State.freeStream s).streams } :=
    foldl_frame (R := fun s t : State => t = { s with streams := t.streams }) (fun _ => rfl) (fun a b => by rw [b, a])
      (fun _ _ => rfl) l s
  unfold State.discardDraft State.freeOpened
  rw [freed]
  rfl

theorem stream_discardDraft (s : State) (p : Port) (h : Handle) :
    (s.discardDraft p).stream h =
      if (s.draft p).entries.any (fun e => e.opens? == some h) then Stream.free else s.stream h := by
  have opens : (s.draft p).entries.any (fun e => e.opens? == some h) = true ↔ (s.draft p).opens h := by
    simp only [Draft.opens, List.any_eq_true, beq_iff_eq]
  rw [State.discardDraft, State.stream_setDraft]
  split
  · next ho => exact stream_freeOpened_of_opens (opens.1 ho)
  · next ho => exact stream_freeOpened_of_not_opens fun e => ho (opens.2 e)

/-- Settles O23: the owner's answer in each state of the draft. -/
theorem draftClearEmptiesDraft : Obligations.DraftClearEmptiesDraft := by
  unfold Obligations.DraftClearEmptiesDraft
  intro p s hs
  refine ⟨fun hd => ?_, fun hd => ?_, fun hd => ⟨_, request_accepted hs (t := s.discardDraft p) (r := reply .ok) ?_ rfl, ?_,
    fun q hq => ?_, stream_discardDraft s p, ?_, ?_⟩⟩
  · refine request_refused hs ?_ rfl
    rcases hd with hd | hd <;> simp only [State.takeDraftClear, hd]
  · exact request_accepted hs (r := reply .ok) (by simp only [State.takeDraftClear, hd]) rfl
  · simp only [State.takeDraftClear, hd]
  · exact (draft_discardDraft s p p).trans (if_pos rfl)
  · exact (draft_discardDraft s p q).trans (if_neg hq)
  · exact congrArg PortContext.slot (State.port_setPort_same _ p _)
  · rw [discardDraft_only]
    rfl

/-- Settles O22: the refusals of R48 in their order, then the entry removed and its stream freed. -/
theorem draftDropRemovesEntry : Obligations.DraftDropRemovesEntry := by
  unfold Obligations.DraftDropRemovesEntry
  intro p b s hs
  have taker (hd : (s.draft p).state = .empty ∨ (s.draft p).state = .opened) :
      ¬((s.draft p).state = .queued ∨ (s.draft p).state = .active) := by
    rcases hd with e | e <;> rw [e] <;> decide
  refine ⟨fun hb => ?_, fun hb hd => ?_, fun hb hd hn => ?_, fun e hb hd he => ?_⟩
  · exact request_refused hs (by simp only [State.takeDraftDrop, indexOf_eq_none hb]) rfl
  · exact request_refused hs (by simp only [State.takeDraftDrop, indexOf_eq_some hb, if_pos hd]) rfl
  · exact request_refused hs
      (by simp only [State.takeDraftDrop, indexOf_eq_some hb, if_neg (taker hd), List.getElem?_eq_none hn]) rfl
  · have removed : s.takeDraftDrop p b = ((s.freeOpened [e]).setDraft p ((s.draft p).remove b.toNat), reply .ok) := by
      simp only [State.takeDraftDrop, indexOf_eq_some hb, if_neg (taker hd), he]
    rw [draft_remove_eq] at removed
    cases ho : e.opens? with
    | none =>
      rw [freeOpened_of_opens_none ho] at removed
      exact request_accepted hs removed rfl
    | some h =>
      rw [freeOpened_of_opens ho] at removed
      exact request_accepted hs removed rfl

/-! Viewing (R50) -/

theorem shown_of_ended {d : Draft} (h : d.ended = true) : d.shown = [] := if_pos h

theorem shown_of_not_ended {d : Draft} (h : d.ended = false) : d.shown = d.entries := if_neg (by rw [h]; nofun)

/-- R50: the place of a port's commit is one more than the number of entries before it. -/
theorem placeOf_eq_some {s : State} {p : Port} {before after : List CommitEntry} {c : CommitEntry}
    (hc : s.commits = before ++ c :: after) (hp : c.port = p) (hb : ∀ x ∈ before, x.port ≠ p) :
    s.placeOf p = some (before.length + 1) := by
  have absent : before.findIdx? (fun c => c.port == p) = none := List.findIdx?_eq_none_iff.2 fun x hx => by simpa using hb x hx
  simp [State.placeOf, hc, List.findIdx?_append, absent, List.findIdx?_cons, hp]

/-- R50: the entries a view shows are those of the draft from the first index on, each with its index. -/
theorem draftViewBody_entries (s : State) (p : Port) (first : Nat) :
    (s.draftViewBody p first).entries.map Prod.snd = ((s.draft p).shown.drop first).take 2
      ∧ ∀ x ∈ (s.draftViewBody p first).entries, (s.draft p).shown[x.1]? = some x.2 := by
  refine ⟨?_, fun x hx => ?_⟩
  · have shown : (s.draft p).shown.zipIdx.map (Prod.snd ∘ fun x => (x.2, x.1)) = (s.draft p).shown := List.zipIdx_map_fst 0 _
    simp only [State.draftViewBody, List.map_take, List.map_drop, List.map_map, shown]
  · obtain ⟨y, hy, rfl⟩ := List.mem_map.1 (List.mem_of_mem_drop (List.mem_of_mem_take hx))
    exact List.mem_zipIdx_iff_getElem?.1 hy

/-- Settles O24: the body of the view field by field. -/
theorem draftViewShowsDraft : Obligations.DraftViewShowsDraft := by
  unfold Obligations.DraftViewShowsDraft
  intro p b s hs
  refine ⟨fun hb => ?_, fun hb => ⟨s.draftViewBody p b.toNat, ?_, fun he => ?_, fun he => ?_, rfl, ?_, ?_⟩⟩
  · exact request_refused hs (by simp only [State.takeDraftView, indexOf_eq_none hb]) rfl
  · exact request_accepted hs (by simp only [State.takeDraftView, indexOf_eq_some hb]) rfl
  · have hidden := shown_of_ended he
    refine ⟨if_pos he, by simp only [State.draftViewBody, hidden, List.length_nil], ?_, ?_⟩
    · simp only [State.draftViewBody, hidden, List.zipIdx_nil, List.map_nil, List.drop_nil, List.take_nil]
    · simp only [State.draftViewBody, hidden, List.length_nil, Nat.not_lt_zero, if_false]
  · have all := shown_of_not_ended he
    obtain ⟨entries, indices⟩ := draftViewBody_entries s p b.toNat
    rw [all] at entries indices
    refine ⟨if_neg (by rw [he]; nofun), ?_, entries, indices, ?_⟩ <;> simp only [State.draftViewBody, all]
  · intro before c after hq hc hp hbefore
    exact (if_pos hq).trans (placeOf_eq_some hc hp hbefore)
  · exact fun hq => if_neg hq

/-! Commit and withdraw (R51, R52) -/

/-- R56: no batch forms while the Switch Engine is busy. -/
theorem formIfDue_busy {s : State} (h : s.switch.phase ≠ .idle) : s.formIfDue = s := by
  have : s.batchDue = false := by simp [State.batchDue, h]
  rw [State.formIfDue, this]
  rfl

/-- Settles O25: the owner's answer in each state of the draft, then the batch. -/
theorem commitJoinsQueue : Obligations.CommitJoinsQueue := by
  unfold Obligations.CommitJoinsQueue
  intro p b s hs
  have refused {st : Status} (h : s.takeCommit p b = (s, reply st)) (hst : st.accepts = false) :
      exec (.commit p (.sized b)) s = .next (s.refused p st) :=
    requestThen_refused false p b (State.takeCommit p) State.formIfDue s st hs h hst
  refine ⟨?_, fun hb => ?_, fun hb hd => ?_, fun hb hd => ?_⟩
  · rintro f u hf hd rfl
    have formed := requestThen_accepted false p b (State.takeCommit p) State.formIfDue s (s.enqueue p f) (reply .accepted) hs
      (by simp only [State.takeCommit, flagsOf_eq_some hf, hd]) rfl
    exact ⟨formed, fun hbusy => formed.trans (congrArg Host.Outcome.next (formIfDue_busy hbusy))⟩
  · exact refused (by simp only [State.takeCommit, flagsOf_eq_none hb]) rfl
  · obtain ⟨f, hf⟩ := exists_flagsOf hb
    exact refused (by simp only [State.takeCommit, hf, hd]) rfl
  · obtain ⟨f, hf⟩ := exists_flagsOf hb
    exact refused (by rcases hd with hd | hd <;> simp only [State.takeCommit, hf, hd]) rfl

/-- Settles O26: the owner's answer in each state of the draft. -/
theorem withdrawTakesCommitBack : Obligations.WithdrawTakesCommitBack := by
  unfold Obligations.WithdrawTakesCommitBack
  intro p s hs
  split
  · next hd => exact request_accepted hs (r := reply .ok) (by simp only [State.takeWithdraw, hd]; rfl) rfl
  · next hd => exact request_refused hs (by simp only [State.takeWithdraw, hd]) rfl
  · next hd => exact request_refused hs (by simp only [State.takeWithdraw, hd]) rfl
  · next hd => exact request_refused hs (by simp only [State.takeWithdraw, hd]) rfl

/-! Staging (R44, R46, R47) -/

theorem closedTo_eq_busy {d : Draft} (h : d.state = .queued ∨ d.state = .active) : d.closedTo = some .draftBusy := if_pos h

theorem closedTo_eq_full {d : Draft} (h : d.state = .opened) (hn : 8 ≤ d.entries.length) : d.closedTo = some .draftFull := by
  have takes : ¬(d.state = .queued ∨ d.state = .active) := by rw [h]; decide
  rw [Draft.closedTo, if_neg takes]
  exact if_pos hn

/-- Table 3-4: what a draft that can take no entry answers to a staging request whose fields are in range. -/
theorem staging_refused {p : Port} {o : OpenArgs} {b : Byte} {r : ResizeArgs} {x : SetArgs} {c : Instr} {s : State} {st : Status}
    (hs : s.serves p) (ho : (openOf o).isSome = true) (hb : b.toNat < 32) (hr : r.handle.toNat < 32) (h1 : 1 ≤ r.lanes.toNat)
    (h2 : r.lanes.toNat ≤ 16) (hx : (settingSetOf x).isSome = true)
    (hc : c ∈ [Instr.draftOpen p (.sized o), .draftClose p (.sized b), .draftResize p (.sized r), .draftSet p (.sized x)])
    (hd : (s.draft p).closedTo = some st) (hst : st.accepts = false) : exec c s = .next (s.refused p st) := by
  obtain ⟨y, ho⟩ := Option.isSome_iff_exists.1 ho
  obtain ⟨z, hx⟩ := Option.isSome_iff_exists.1 hx
  have close : handleOf b = some ⟨b.toNat, hb⟩ := handleOf_eq_some rfl
  have resize : handleOf r.handle = some ⟨r.handle.toNat, hr⟩ := handleOf_eq_some rfl
  simp only [List.mem_cons, List.not_mem_nil, or_false] at hc
  rcases hc with rfl | rfl | rfl | rfl
  · exact request_refused hs (by simp only [State.takeDraftOpen, ho, hd]) hst
  · exact request_refused hs (by simp only [State.takeDraftClose, close, hd]) hst
  · exact request_refused hs (by simp only [State.takeDraftResize, resize, lanesOf_eq_some h1 h2, hd]) hst
  · exact request_refused hs (by simp only [State.takeDraftSet, hx, hd]) hst

/-- Settles O21: checks 2 and 3 of Table 3-4 come first once the fields are in range. -/
theorem closedDraftsRefuseStaging : Obligations.ClosedDraftsRefuseStaging := by
  unfold Obligations.ClosedDraftsRefuseStaging
  intro p o b r x c s hs ho hb hr h1 h2 hx hc
  exact ⟨fun hd => staging_refused hs ho hb hr h1 h2 hx hc (closedTo_eq_busy hd) rfl,
    fun hd hn => staging_refused hs ho hb hr h1 h2 hx hc (closedTo_eq_full hd hn) rfl⟩

/-- Table 3-6: the settings and their ranges. -/
theorem settingSetOf_eq_none_iff (a : SetArgs) : settingSetOf a = none ↔ ¬(
    (a.setting.toNat = 1 ∧ 2 ≤ a.value.toNat ∧ a.value.toNat ≤ 15)
      ∨ (a.setting.toNat = 2 ∧ 32 ≤ a.value.toNat ∧ a.value.toNat ≤ 255)
      ∨ (a.setting.toNat = 3 ∧ a.value.toNat ≤ 3)
      ∨ (a.setting.toNat = 4 ∧ 16 ≤ a.value.toNat ∧ a.value.toNat ≤ 255)
      ∨ (a.setting.toNat = 5 ∧ a.value.toNat ≤ 1)) := by
  have ranged (k : Setting) (v : Nat) : (if k.inRange v then some (k, v) else none) = none ↔ ¬k.inRange v = true :=
    ite_eq_right_iff.trans (by simp)
  unfold settingSetOf settingOf
  split
  · next k hk =>
    rw [ranged]
    split at hk <;> cases hk <;> next e => simp [Setting.inRange, e]
  · next hk =>
    split at hk <;> cases hk
    next h1 h2 h3 h4 h5 =>
      simp only [true_iff]
      rintro (⟨e, -⟩ | ⟨e, -⟩ | ⟨e, -⟩ | ⟨e, -⟩ | ⟨e, -⟩)
      · exact h1 e
      · exact h2 e
      · exact h3 e
      · exact h4 e
      · exact h5 e

/-- R47: the value staged is the one given. -/
theorem value_of_settingSetOf {a : SetArgs} {k : Setting} {v : Nat} (h : settingSetOf a = some (k, v)) : v = a.value.toNat := by
  unfold settingSetOf at h
  split at h
  · split at h
    · cases h; rfl
    · cases h
  · cases h

/-- Settles O20: the two refusals of R47 are one, and nothing is checked at order 4. -/
theorem draftSetStagesSetting : Obligations.DraftSetStagesSetting := by
  unfold Obligations.DraftSetStagesSetting
  intro p a s hs
  refine ⟨fun hnone => ?_, settingSetOf_eq_none_iff a, fun k v hkv => ⟨value_of_settingSetOf hkv, fun hd hn => ?_⟩⟩
  · have outside : settingSetOf a = none := Option.eq_none_iff_forall_ne_some.2 fun x => hnone x.1 x.2
    exact request_refused hs (by simp only [State.takeDraftSet, outside]) rfl
  · exact request_accepted hs (by simp only [State.takeDraftSet, hkv, closedTo_eq_none hd hn]; rfl) rfl

/-! DRAFT_CLOSE and DRAFT_RESIZE (R46) -/

section
variable {s : State} {p : Port} {h : Handle}

theorem closable_duplicate (hn : ∃ e ∈ (s.draft p).entries, e.handle? = some h) : s.closable p h = some .duplicate := by
  have : (s.draft p).names h = true := by simpa [Draft.names] using hn
  simp only [State.closable, this, if_true]

variable (hn : ∀ e ∈ (s.draft p).entries, e.handle? ≠ some h)
include hn

theorem closable_free (hf : (s.stream h).state = .free) : s.closable p h = some .notFound := by
  simp [State.closable, draft_names_eq_false hn, hf]

theorem closable_foreign (hf : (s.stream h).state ≠ .free)
    (ho : (s.stream h).owner ≠ some (p, (s.port p).session) ∨ (s.stream h).orphan = true) :
    s.closable p h = some .notOwner := by
  have : s.owns p (s.stream h) = false := by
    rw [State.owns, ← Bool.not_eq_true, belongsTo_iff, not_and_or, Bool.not_eq_false]
    exact ho
  simp [State.closable, draft_names_eq_false hn, hf, this]

/-- The last check of R46 for a stream of the session. -/
theorem closable_own (ho : (s.stream h).owner = some (p, (s.port p).session)) (hr : (s.stream h).orphan = false) :
    s.closable p h =
      if (s.stream h).state = .free ∨ ((s.stream h).state ≠ .live ∧ (s.stream h).state ≠ .suspended)
        ∨ (s.stream h).mark ≠ .none then some .notFound else none := by
  have : s.owns p (s.stream h) = true := (belongsTo_iff _ _ _).2 ⟨ho, hr⟩
  by_cases hf : (s.stream h).state = .free <;> simp [State.closable, draft_names_eq_false hn, hf, this]

end

section
variable {s : State} {p : Port} {b : Byte} {a : ResizeArgs} {h : Handle} (hs : s.serves p) (hb : b.toNat = h.val)
  (ha : a.handle.toNat = h.val) (h1 : 1 ≤ a.lanes.toNat) (h2 : a.lanes.toNat ≤ 16) (hd : (s.draft p).closedTo = none)

include hs hb hd in
theorem draftClose_closable (hc : s.closable p h = none) :
    exec (.draftClose p (.sized b)) s =
      .next ((s.staged p (.closing h)).1.accepted p { status := .ok, body := .index (s.draft p).entries.length }) :=
  request_accepted hs (by simp only [State.takeDraftClose, handleOf_eq_some hb, hd, hc]; rfl) rfl

include hs ha h1 h2 hd in
theorem draftResize_closable (hc : s.closable p h = none) :
    (a.lanes.toNat ≠ (s.stream h).lanes → exec (.draftResize p (.sized a)) s =
        .next ((s.staged p (.resizing h a.lanes.toNat)).1.accepted p
          { status := .ok, body := .index (s.draft p).entries.length }))
      ∧ (a.lanes.toNat = (s.stream h).lanes → exec (.draftResize p (.sized a)) s = .next (s.refused p .badValue)) := by
  refine ⟨fun hl => request_accepted hs ?_ rfl, fun hl => request_refused hs ?_ rfl⟩
  · simp only [State.takeDraftResize, handleOf_eq_some ha, lanesOf_eq_some h1 h2, hd, hc, if_neg hl]
    rfl
  · simp only [State.takeDraftResize, handleOf_eq_some ha, lanesOf_eq_some h1 h2, hd, hc, if_pos hl]

include hs hb ha h1 h2 hd in
/-- R46: what refuses a DRAFT_CLOSE at order 4 refuses a DRAFT_RESIZE. -/
theorem closeAndResize_refused {st : Status} (hc : s.closable p h = some st) (hst : st.accepts = false) :
    exec (.draftClose p (.sized b)) s = .next (s.refused p st)
      ∧ exec (.draftResize p (.sized a)) s = .next (s.refused p st) :=
  ⟨request_refused hs (by simp only [State.takeDraftClose, handleOf_eq_some hb, hd, hc]) hst,
    request_refused hs (by
      simp only [State.takeDraftResize, handleOf_eq_some ha, lanesOf_eq_some h1 h2, hd, hc]) hst⟩

end

/-- Settles O19: the field checks, then the checks of R46 in their order (`State.closable`), then the entry staged. -/
theorem draftCloseAndResizeStage : Obligations.DraftCloseAndResizeStage := by
  unfold Obligations.DraftCloseAndResizeStage
  intro p b a s hs
  refine ⟨fun hb => ?_, fun ha => ?_, fun h hb ha h1 h2 hstate hlen => ?_⟩
  · exact request_refused hs (by simp only [State.takeDraftClose, handleOf_eq_none hb]) rfl
  · refine request_refused hs ?_ rfl
    rcases ha with ha | ha
    · simp only [State.takeDraftResize, handleOf_eq_none ha]
    · cases hh : handleOf a.handle <;> simp only [State.takeDraftResize, lanesOf_eq_none ha, hh]
  · have hd := closedTo_eq_none hstate hlen
    have refused {st : Status} (hc : s.closable p h = some st) (hst : st.accepts = false) :=
      closeAndResize_refused hs hb ha h1 h2 hd hc hst
    refine ⟨fun hn => refused (closable_duplicate hn) rfl, fun hn => ⟨fun hf => refused (closable_free hn hf) rfl,
      fun hf ho => refused (closable_foreign hn hf ho) rfl, fun ho hr => ?_⟩⟩
    have own := closable_own hn ho hr
    refine ⟨fun hx => refused (own.trans (if_pos ?_)) rfl, fun hlive hmark => ?_⟩
    · rcases hx with e | e | e | ⟨-, e⟩
      · exact .inr (.inl (by rw [e]; decide))
      · exact .inr (.inl (by rw [e]; decide))
      · exact .inr (.inl (by rw [e]; decide))
      · exact .inr (.inr e)
    · have hc : s.closable p h = none := own.trans (if_neg (by rcases hlive with e | e <;> simp [e, hmark]))
      obtain ⟨resized, same⟩ := draftResize_closable hs ha h1 h2 hd hc
      exact ⟨draftClose_closable hs hb hd hc, resized, same⟩

end Sys2Proof.Machine


/-! ### A batch of settings only (R56, R59, R60, R152) -/

namespace Sys2Proof.Machine

theorem needsSwitch_self (w : Plan) : needsSwitch w w = false := by
  simp [needsSwitch, differing]

/-- R57: a commit of one SET passes, and changes its setting in the working settings only. -/
theorem validate_set {s : State} {c : CommitEntry} {k : Setting} {v : Nat} (hc : s.commits = [c])
    (he : (s.draft c.port).entries = [.setting k v]) (hm : s.marked = []) :
    s.validate = { work := { plan := s.switch.plan, closed := [] }, settings := s.switch.settings.set k v
                   accepted := [c], rejected := [] } := by
  simp [State.validate, hc, hm, State.validateCommit, he, State.validateOps, State.validateOp, applySets]

theorem formBatch_set {s : State} {c : CommitEntry} {k : Setting} {v : Nat} (hc : s.commits = [c])
    (he : (s.draft c.port).entries = [.setting k v]) (hm : s.marked = []) :
    s.formBatch = (s.setCommits []).completeSettings s.validate := by
  have valid := validate_set hc he hm
  have rejecting : s.rejecting = s.setCommits [] := by rw [State.rejecting, valid]; rfl
  have stays : ¬needsSwitch s.switch.plan s.validate.work.plan = true := by rw [valid, needsSwitch_self]; nofun
  have nonempty : ¬s.validate.accepted.isEmpty = true := by rw [valid]; nofun
  rw [formBatch_eq, if_neg stays, if_neg nonempty, rejecting]

/-- R56: the conditions of a batch. -/
theorem batchDue_of_commits {s : State} (hidle : s.switch.phase = .idle) (hc : s.commits ≠ [])
    (hr : ∀ q, (s.entry q).state ≠ .resyncing) : s.batchDue = true := by
  have quiet : s.chain.resyncing = false := List.any_eq_false.2 fun q _ => by simpa [State.entry] using hr q
  simp [State.batchDue, hidle, hc, quiet]

/-- R60: what a batch of settings only leaves besides drafts, settings, event fetch and the port queues. -/
theorem completeSettings_keeps (v : Validation) (s : State) :
    (s.completeSettings v).streams = s.streams ∧ (s.completeSettings v).chain = s.chain
      ∧ (s.completeSettings v).fetch = (s.takeSettings v.settings).fetch := by
  have announced := announceSettings_frame
    (v.accepted.foldl State.completeCommit (s.takeSettings v.settings)) (changedSettings s.switch.settings v.settings) v.settings
  have completed := BatchFrame.foldl completeCommit_frame v.accepted (s.takeSettings v.settings)
  have streams := streams_foldl completeCommit_streams v.accepted (s.takeSettings v.settings)
  have chain := (EnginesKept.foldl completeCommit_engines v.accepted (s.takeSettings v.settings)).chain
  refine ⟨(announced.streams.trans streams).trans (takeSettings_streams _ s), (announced.chain.trans chain).trans ?_,
    announced.fetch.trans completed.fetch⟩
  rw [takeSettings_eq]
  rfl

/-- Settles O41: the commit is accepted, no map changes, and the settings take effect. -/
theorem settingsBatchCompletes : Obligations.SettingsBatchCompletes := by
  unfold Obligations.SettingsBatchCompletes
  intro s c k v hs hidle hc he hmark hresync
  have marked : s.marked = [] := List.eq_nil_iff_forall_not_mem.2 fun h hm => (mem_marked s h).1 hm (hmark h)
  have valid := validate_set hc he marked
  have due : s.batchDue = true := batchDue_of_commits hidle (by rw [hc]; nofun) hresync
  have frame := formBatch_frame s
  have commits := formBatch_commits s
  have formed := formBatch_set hc he marked
  obtain ⟨streams, chain, fetch⟩ := completeSettings_keeps s.validate (s.setCommits [])
  have switch := completeSettings_switch s.validate (s.setCommits [])
  rw [← formed] at streams chain fetch switch
  rw [valid] at switch
  have mine : c.port ∈ s.validate.accepted.map CommitEntry.port := by rw [valid]; exact List.mem_singleton_self _
  refine ⟨s.formBatch, exec_batchFormation hs due, commits, ?_, fun q hq => ?_, switch, ?_, streams, chain, frame.ports,
    frame.cycle, frame.remote, frame.arbiter⟩
  · rw [formed]
    exact draft_completeSettings_accepted mine
  · refine draft_formBatch_other fun d hd => ?_
    rw [hc, List.mem_singleton] at hd
    rw [hd]
    exact hq.symm
  · rw [fetch, switch, valid, takeSettings_eq]
    rfl

end Sys2Proof.Machine


/-! ### A trail in the Switch Engine and the end of the settle window (R69 to R72, R78 to R80, R115) -/

namespace Sys2Proof.Machine

/-! The marks of the end of a settle window (R79, R115) -/

/-- R79: the mark an entry takes at the end of the window; `beyond` is whether it lies beyond an ISOLATED hop. -/
def ChainEntry.unsettled (beyond : Bool) (e : ChainEntry) : ChainEntry :=
  if beyond then { e with stale := true } else { e with outOfStep := true }

theorem ChainEntry.unsettled_unsettled (b : Bool) (e : ChainEntry) : (e.unsettled b).unsettled b = e.unsettled b := by
  cases b <;> rfl

theorem ChainEntry.unsettled_keeps (b : Bool) (e : ChainEntry) :
    (e.unsettled b).state = e.state ∧ (e.unsettled b).hopState = e.hopState := by
  cases b <;> exact ⟨rfl, rfl⟩

/-- What setting an out-of-step mark makes of every entry. -/
theorem entry_setOutOfStep (s : State) (p q : Nat) :
    (s.setOutOfStep p).entry q = if q = p ∧ 1 ≤ p ∧ p ≤ 15 then { s.entry q with outOfStep := true } else s.entry q := by
  unfold State.setOutOfStep
  split
  · next h =>
    split
    · next hq => rw [hq.1, ← h]
    · rfl
  · rw [State.entry, (recompute_frame _).chain]
    refine (State.entry_setEntry s p q _).trans ?_
    split
    · next hq => rw [hq.1]
    · rfl

theorem handedOver_iff (c : ChainManager) (x : Transfer) :
    c.handedOver x = true ↔ (c.entry x.position).state = .ready ∧ (x.settled = false ∨ x.missed = true) := by
  simp [ChainManager.handedOver, ChainManager.isReady]

/-- A READY position is an endpoint's. -/
theorem position_of_ready {c : ChainManager} {p : Nat} (h : (c.entry p).state = .ready) : 1 ≤ p ∧ p ≤ 15 := by
  by_contra hp
  rw [ChainManager.entry_out c p hp] at h
  cases h

theorem entry_markUnsettled (s : State) (x : Transfer) (q : Nat) :
    (s.markUnsettled x).entry q =
      if x.position = q ∧ s.chain.handedOver x = true then (s.entry q).unsettled (s.chain.beyondIsolated q)
      else s.entry q := by
  unfold State.markUnsettled
  split
  · next hx =>
    have hp := position_of_ready ((handedOver_iff _ x).1 hx).1
    by_cases hq : x.position = q
    · subst hq
      split
      · next hb => rw [entry_setStale, if_pos ⟨rfl, hp⟩, if_pos ⟨rfl, hx⟩, ChainEntry.unsettled, if_pos hb]
      · next hb => rw [entry_setOutOfStep, if_pos ⟨rfl, hp⟩, if_pos ⟨rfl, hx⟩, ChainEntry.unsettled, if_neg hb]
    · split
      · rw [entry_setStale, if_neg fun h => hq h.1.symm, if_neg fun h => hq h.1]
      · rw [entry_setOutOfStep, if_neg fun h => hq h.1.symm, if_neg fun h => hq h.1]
  · next hx => rw [if_neg fun h => hx h.2]

/-- A mark changes neither what makes an endpoint handed over nor what lies beyond an ISOLATED hop. -/
theorem markUnsettled_keeps (s : State) (x : Transfer) :
    (s.markUnsettled x).chain.handedOver = s.chain.handedOver
      ∧ (s.markUnsettled x).chain.beyondIsolated = s.chain.beyondIsolated := by
  have same (q : Nat) : ((s.markUnsettled x).chain.entry q).state = (s.chain.entry q).state
      ∧ ((s.markUnsettled x).chain.entry q).hopState = (s.chain.entry q).hopState := by
    have e : (s.markUnsettled x).chain.entry q = _ := entry_markUnsettled s x q
    rw [e]
    split
    · exact ChainEntry.unsettled_keeps _ _
    · exact ⟨rfl, rfl⟩
  refine ⟨funext fun y => ?_, funext fun q => ?_⟩
  · rw [ChainManager.handedOver, ChainManager.isReady, (same _).1]
    rfl
  · simp only [ChainManager.beyondIsolated, (same _).2]

/-- R79: of some transfer records, the positions of those handed over take their mark, once. -/
theorem entry_markUnsettleds (l : List Transfer) (s : State) (q : Nat) :
    (l.foldl State.markUnsettled s).entry q =
      if ∃ x ∈ l, x.position = q ∧ s.chain.handedOver x = true then (s.entry q).unsettled (s.chain.beyondIsolated q)
      else s.entry q := by
  induction l generalizing s with
  | nil => simp
  | cons x l ih =>
    obtain ⟨handed, beyond⟩ := markUnsettled_keeps s x
    simp only [List.foldl_cons, ih, handed, beyond, entry_markUnsettled, List.exists_mem_cons_iff]
    by_cases h1 : x.position = q ∧ s.chain.handedOver x = true
    · simp only [h1, and_self, if_true, true_or, ChainEntry.unsettled_unsettled, ite_self]
    · simp only [h1, if_false, false_or]

/-! The end of the window (R79) -/

theorem settleEnd_switch (s : State) : s.settleEnd.switch = s.switch.settled :=
  congrArg SwitchEngine.settled (markAllUnsettled_frame s).switch

theorem entry_settleEnd (s : State) (q : Nat) :
    s.settleEnd.entry q =
      if ∃ x ∈ s.switch.transfers, x.position = q ∧ s.chain.handedOver x = true then
        (s.entry q).unsettled (s.chain.beyondIsolated q)
      else s.entry q :=
  entry_markUnsettleds s.switch.transfers s q

/-- R79: an endpoint no record hands over takes no mark. -/
theorem entry_settleEnd_unmarked {s : State} {q : Nat} (h : ∀ x ∈ s.switch.transfers, x.position = q →
    (s.entry q).state ≠ .ready ∨ (x.settled = true ∧ x.missed = false)) : s.settleEnd.entry q = s.entry q := by
  rw [entry_settleEnd, if_neg]
  rintro ⟨x, hx, rfl, hh⟩
  obtain ⟨ready, left⟩ := (handedOver_iff _ x).1 hh
  rcases h x hx rfl with hn | ⟨settled, missed⟩
  · exact hn ready
  · rw [settled, missed] at left
    rcases left with e | e <;> cases e

theorem settleOver_iff (s : State) : s.settleOver = true ↔ s.switch.phase = .settle ∧ s.switch.settle = 0 := by
  simp [State.settleOver]

theorem exec_settleEnd {s : State} (hs : s.resetHigh = true) (m : Meet) :
    exec (.settleEnd m) s = .next (if s.settleOver then s.settleEnd.settleWork m else s) :=
  congrArg Host.Outcome.next (if_pos hs)

/-! What a trail says of a transfer record (R69, R71) -/

/-- R69: the answer by which a seal is OK, as the Switch Engine reads it. -/
theorem sealsOk_iff (a : Arrival) (token : Token) :
    a.sealsOk token = true ↔ a.record.client = some .switch ∧ ∃ l, a.okPayload = some (token :: l) := by
  unfold Arrival.sealsOk Arrival.okPayload
  cases a.answer with
  | none => simp
  | some ans =>
    by_cases h : ans.result = .ok
    · simp [h, List.head?_eq_some_iff]
    · simp [h]

theorem verdict_queued {x : Transfer} (h : x.status = .queued) (a : Arrival) (token : Token) : x.verdict a token = .keep := by
  rw [Transfer.verdict, h]

theorem verdict_sent {x : Transfer} (h : x.status = .sent) (a : Arrival) (token : Token) :
    x.verdict a token = if a.sealsOk token then .sealed else .resend := by
  simp only [Transfer.verdict, h]
  by_cases hs : a.sealsOk token = true
  · obtain ⟨client, l, e⟩ := (sealsOk_iff a token).1 hs
    simp [hs, e, client]
  · rw [if_neg hs]
    split
    · next b l e =>
      rw [if_neg]
      rintro ⟨client, rfl⟩
      exact hs ((sealsOk_iff a b).2 ⟨client, l, e⟩)
    · rfl

theorem verdict_ready {x : Transfer} (h : x.status = .ready) (a : Arrival) (token : Token) :
    x.verdict a token = if a.unready token x.position then .resend else .keep := by
  simp only [Transfer.verdict, h]
  split
  · next f e =>
    have lost : a.unready token x.position = lostReadiness token f := by rw [Arrival.unready, e]; rfl
    rw [lost]
  · next e =>
    have kept : a.unready token x.position = false := by rw [Arrival.unready, e]; rfl
    rw [kept]; rfl

/-- R69, R71: a transfer record is sent again when the trail fails it. -/
theorem verdict_resend (x : Transfer) (a : Arrival) (token : Token) :
    (x.verdict a token == .resend) = x.failedBy a token := by
  unfold Transfer.failedBy
  cases h : x.status with
  | queued => rw [verdict_queued h]; rfl
  | sent => rw [verdict_sent h]; cases a.sealsOk token <;> rfl
  | ready => rw [verdict_ready h]; cases a.unready token x.position <;> rfl

theorem verdict_sealed (x : Transfer) (a : Arrival) (token : Token) :
    x.verdict a token = .sealed ↔ x.status = .sent ∧ a.sealsOk token = true := by
  cases h : x.status with
  | queued => simp [verdict_queued h]
  | sent => rw [verdict_sent h]; cases a.sealsOk token <;> simp
  | ready => rw [verdict_ready h]; cases a.unready token x.position <;> simp

/-- R69: a transfer record after a trail in PREPARE. -/
theorem after_eq_prepared (x : Transfer) (a : Arrival) (token : Token) : x.after a token = x.prepared a token := by
  unfold Transfer.after Transfer.prepared
  rw [← verdict_resend]
  cases h : x.status with
  | queued => rw [verdict_queued h]; rfl
  | sent => rw [verdict_sent h]; cases a.sealsOk token <;> rfl
  | ready => rw [verdict_ready h]; cases a.unready token x.position <;> rfl

/-! The engine after a trail (R69 to R72, R78) -/

/-- R71. -/
theorem readCountdown_eq (a : Arrival) (x : SwitchEngine) :
    x.readCountdown a = { x with transfers := x.transfers.map fun t => t.counted a x.token } := by
  have counted (t : Transfer) : (if t.status = .ready ∧ t.verdict a x.token = .resend then { t with missed := true } else t)
      = t.counted a x.token := by
    unfold Transfer.counted
    by_cases h : t.status = .ready
    · rw [verdict_ready h]; cases a.unready x.token t.position <;> simp [h]
    · simp [h]
  simp only [SwitchEngine.readCountdown, counted]

/-- R78. -/
theorem readSettle_eq (a : Arrival) (x : SwitchEngine) :
    x.readSettle a = { x with transfers := x.transfers.map fun t => t.watched a x.epoch, settle := x.settle - 1 } := rfl

/-- R69: whether some record has no resend left. -/
theorem spent_iff (a : Arrival) (x : SwitchEngine) :
    x.spent a = true ↔ ∃ t ∈ x.transfers, t.failedBy a x.token = true ∧ 2 ≤ t.resends := by
  simp [SwitchEngine.spent, verdict_resend]

/-- R70: the progress count after a trail: 0 when a seal was answered OK. -/
def SwitchEngine.progressed (x : SwitchEngine) (a : Arrival) : Nat :=
  if (∃ t ∈ x.transfers, t.status = .sent) ∧ a.sealsOk x.token = true then 0 else x.progress + 1

theorem readPrepare_eq (a : Arrival) (x : SwitchEngine) :
    x.readPrepare a = { x with
      transfers := x.transfers.map fun t => t.prepared a x.token
      queue := x.queue ++ (x.transfers.filter fun t => t.failedBy a x.token).map Transfer.position
      progress := x.progressed a } := by
  have seals : (x.transfers.any fun t => t.verdict a x.token == .sealed) = true
      ↔ (∃ t ∈ x.transfers, t.status = .sent) ∧ a.sealsOk x.token = true := by
    simp only [List.any_eq_true, beq_iff_eq, verdict_sealed, ← and_assoc, exists_and_right]
  simp only [SwitchEngine.readPrepare, SwitchEngine.progressed, verdict_resend, seals,
    funext fun t => after_eq_prepared t a x.token]

/-- R72: with every transfer record READY, PREPARE completes. -/
theorem completed_eq {x : SwitchEngine} {b : Batch} (hb : x.batch = some b) :
    x.completed = { x with
      phase := if ∀ t ∈ x.transfers, t.status = .ready then .countdown else x.phase
      countdown := if ∀ t ∈ x.transfers, t.status = .ready then b.lead else x.countdown } := by
  have all : (x.transfers.all fun t => t.status == .ready) = true ↔ ∀ t ∈ x.transfers, t.status = .ready := by simp
  unfold SwitchEngine.completed
  split
  · next c hc =>
    obtain rfl : c = b := Option.some_inj.1 (hc.symm.trans hb)
    simp only [all]
    split <;> rfl
  · next hn => rw [hn] at hb; cases hb

/-- R80: a loss by the break rule goes before the other reasons of an abandonment (assumption 11). -/
theorem reason_eq (a : Arrival) (x : SwitchEngine) :
    x.reason a = if ∃ t ∈ x.transfers, t.position ∈ a.losses then .endpointLost
      else if x.spent a then .mapTransfer else .timeout := by
  simp [SwitchEngine.reason]

section
variable {a : Arrival} {s : State}

/-- R78: the last trail of the window ends it. -/
theorem readSwitch_settle (h : s.switch.phase = .settle) :
    s.readSwitch a = if s.switch.settle ≤ 1 then (s.setSwitch (s.switch.readSettle a)).settleEnd
      else s.setSwitch (s.switch.readSettle a) := by
  have last : (s.switch.readSettle a).settle = 0 ↔ s.switch.settle ≤ 1 := Nat.sub_eq_zero_iff_le
  simp only [State.readSwitch, h, State.setSwitch_switch, last]

theorem readSwitch_prepare (h : s.switch.phase = .prepare) : s.readSwitch a = s.readPrepare a := by
  rw [State.readSwitch, h]

variable (ht : s.switch.token = a.token)
include ht

/-- R69: a resend beyond the second abandons the switch. -/
theorem readPrepare_spent (h : s.switch.spent a = true) : s.readPrepare a = s.abandon (s.switch.reason a) := by
  rw [State.readPrepare, if_neg (not_not_intro ht), if_pos (by rw [h]; rfl)]

/-- R70: the prepare timeout abandons the switch. -/
theorem readPrepare_timedOut (h : s.switch.settings.prepareTimeout ≤ s.switch.progressed a) :
    s.readPrepare a = s.abandon (s.switch.reason a) := by
  have out : (s.switch.readPrepare a).timedOut = true := by
    rw [readPrepare_eq]
    exact decide_eq_true h
  rw [State.readPrepare, if_neg (not_not_intro ht), if_pos (by rw [out, Bool.or_true])]

/-- R69 to R72: a trail at which no limit is reached. -/
theorem readPrepare_goesOn (hs : ¬s.switch.spent a = true) (h : s.switch.progressed a < s.switch.settings.prepareTimeout) :
    s.readPrepare a = s.setSwitch (s.switch.readPrepare a).completed := by
  have out : (s.switch.readPrepare a).timedOut = false := by
    rw [readPrepare_eq]
    exact decide_eq_false (Nat.not_le.2 h)
  rw [State.readPrepare, if_neg (not_not_intro ht), if_neg (by rw [out, Bool.or_false]; exact hs)]

end

/-- Settles O44: the end of the window entry by entry, then what a trail makes of the Switch Engine phase by phase. -/
theorem settleEndReturnsToIdle : Obligations.SettleEndReturnsToIdle := by
  unfold Obligations.SettleEndReturnsToIdle
  refine ⟨fun s m hs hphase hcount => ?_, fun a s => ⟨?_, fun hphase => ?_, fun hphase => ?_, fun hphase ht => ?_,
    fun hphase ht => ?_⟩⟩
  · have f := settleEnd_frame s
    refine ⟨?_, settleEnd_switch s, fun x hx hready hleft => ?_, fun q => entry_settleEnd_unmarked, f.ports, f.cycle, f.remote⟩
    · rw [exec_settleEnd hs, if_pos ((settleOver_iff s).2 ⟨hphase, hcount⟩)]
    · rw [entry_settleEnd, if_pos ⟨x, hx, rfl, (handedOver_iff _ x).2 ⟨hready, hleft⟩⟩]
      rfl
  · rintro hphase u rfl
    rw [readSwitch_settle hphase, readSettle_eq]
  · rw [State.readSwitch, hphase, ← readCountdown_eq]
  · rw [State.readSwitch, hphase]
  · rw [readSwitch_prepare hphase, State.readPrepare, if_pos ht]
  · rintro after progress rfl rfl
    rw [readSwitch_prepare hphase]
    refine ⟨fun hspent => ?_, fun hleft => ?_⟩
    · have spent := (spent_iff a s.switch).2 hspent
      rw [readPrepare_spent ht spent, reason_eq, if_pos spent]
    · have unspent : ¬s.switch.spent a = true := by
        rw [spent_iff]
        rintro ⟨x, hx, hf, h2⟩
        exact absurd (hleft x hx hf) (Nat.not_lt.2 h2)
      refine ⟨fun hout => ?_, fun hin b hb => ?_⟩
      · rw [readPrepare_timedOut ht hout, reason_eq, if_neg unspent]
      · have hb' : (s.switch.readPrepare a).batch = some b := hb
        rw [readPrepare_goesOn ht unspent hin, completed_eq hb', readPrepare_eq, hphase]
        rfl

end Sys2Proof.Machine


/-! ### The active plan and epoch, operation by operation (R64, R75) -/

namespace Sys2Proof.Machine

/-- The active plan and the active epoch do not differ. -/
structure ActiveKept (s t : State) : Prop where
  plan : t.switch.plan = s.switch.plan
  epoch : t.switch.epoch = s.switch.epoch

namespace ActiveKept

theorem refl (s : State) : ActiveKept s s := ⟨rfl, rfl⟩

theorem trans {s t u : State} (a : ActiveKept s t) (b : ActiveKept t u) : ActiveKept s u :=
  ⟨b.plan.trans a.plan, b.epoch.trans a.epoch⟩

theorem foldl {β : Type} {f : State → β → State} (h : ∀ s x, ActiveKept s (f s x)) (l : List β) (s : State) :
    ActiveKept s (l.foldl f s) := foldl_frame .refl .trans h l s

theorem of_switch {s t : State} (e : t.switch = s.switch) : ActiveKept s t := ⟨by rw [e], by rw [e]⟩

theorem of_frame {s t : State} (f : ChainFrame s t) : ActiveKept s t := of_switch f.switch

theorem of_led {s t : State} (f : LedKept s t) : ActiveKept s t := ⟨f.plan, f.epoch⟩

end ActiveKept

/-! Batches and trails leave them (R60, R61, R69 to R73, R78 to R80) -/

theorem formIfDue_active (s : State) : ActiveKept s s.formIfDue := .of_led (formIfDue_led s)

/-- R80: an abandonment leaves the plan and the epoch. -/
theorem abandon_active (w : AbandonReason) (s : State) : ActiveKept s (s.abandon w) := by
  cases hb : s.switch.batch with
  | none => rw [State.abandon, hb]; exact .refl s
  | some b =>
    have sw := abandon_switch hb w
    exact ⟨by rw [sw]; rfl, by rw [sw]; rfl⟩

theorem abandonOnLoss_active (ps : List Nat) (s : State) : ActiveKept s (s.abandonOnLoss ps) := by
  unfold State.abandonOnLoss
  split
  · exact abandon_active _ s
  · exact .refl s

theorem settleEnd_active (s : State) : ActiveKept s s.settleEnd := by
  have sw := settleEnd_switch s
  exact ⟨by rw [sw]; rfl, by rw [sw]; rfl⟩

theorem completed_epoch (x : SwitchEngine) : x.completed.epoch = x.epoch := by
  unfold SwitchEngine.completed
  split
  · split <;> rfl
  · rfl

theorem readPrepare_active (a : Arrival) (s : State) : ActiveKept s (s.readPrepare a) := by
  unfold State.readPrepare
  split
  · exact .refl s
  · split
    · exact abandon_active _ s
    · exact ⟨(completed_keeps _).1, completed_epoch _⟩

theorem readSwitch_active (a : Arrival) (s : State) : ActiveKept s (s.readSwitch a) := by
  cases h : s.switch.phase with
  | idle => rw [State.readSwitch, h]; exact .refl s
  | prepare => rw [readSwitch_prepare h]; exact readPrepare_active a s
  | countdown => rw [State.readSwitch, h]; exact ⟨rfl, rfl⟩
  | settle =>
    have settling : ActiveKept s (s.setSwitch (s.switch.readSettle a)) := ⟨rfl, rfl⟩
    rw [readSwitch_settle h]
    split
    · exact settling.trans (settleEnd_active _)
    · exact settling

theorem settleWork_active (m : Meet) (s : State) : ActiveKept s (s.settleWork m) := by
  cases m
  · exact ((ActiveKept.of_frame (moveEntries_frame s)).trans (formIfDue_active _)).trans (.of_frame (ensureResync_frame _))
  · exact (formIfDue_active s).trans (.of_frame ((moveEntries_frame _).trans (ensureResync_frame _)))

theorem losePositions_active (ps : List Nat) (s : State) : ActiveKept s (s.losePositions ps) := by
  have reported (s : State) : ActiveKept s (s.reportLosses ps) := by
    unfold State.reportLosses
    refine ActiveKept.trans ?_ (.foldl (fun s p => .of_switch (loseRemote_switch ps s p)) _ _)
    exact ((ActiveKept.of_frame (recompute_frame s).toChainFrame).trans (abandonOnLoss_active ps _)).trans
      (.of_switch (State.setFetch_switch _ _))
  unfold State.losePositions
  split
  · exact .refl s
  · refine ActiveKept.trans (.of_frame ?_) (reported _)
    exact (setChain_frame s _).trans (.foldl (fun s _ => (raise_frame s _).toChainFrame) _ _)

theorem breakChain_active (s : State) : ActiveKept s s.breakChain :=
  (ActiveKept.of_frame (setChain_frame s _)).trans (losePositions_active _ _)

theorem applyBreak_active (a : Arrival) (m : Meet) (s : State) : ActiveKept s (s.applyBreak a m) := by
  have counted : ActiveKept s (s.setChain (s.chain.countShort a.trail.reach)) := .of_frame (setChain_frame s _)
  unfold State.applyBreak
  dsimp only
  split
  · exact counted.trans ((breakChain_active _).trans (settleWork_active m _))
  · exact counted

theorem answerResync_active (p : Nat) (ans : Option Answer) (s : State) : ActiveKept s (s.answerResync p ans) := by
  have failed : ActiveKept s (s.resyncFailed p) := by
    unfold State.resyncFailed
    split
    · exact .of_switch rfl
    · exact losePositions_active _ s
  unfold State.answerResync
  split
  · split
    · split
      · exact .of_frame (resyncDone_frame p s)
      · exact failed
    · exact .refl s
  · exact .refl s

theorem answerChain_active (a : Arrival) (s : State) : ActiveKept s (s.answerChain a) := by
  unfold State.answerChain
  split
  · exact .of_frame (answerSeek_frame _ _ s)
  · exact .of_frame (answerExtend_frame _ _ s)
  · exact answerResync_active _ _ s
  · exact .of_frame (answerProbe_frame _ _ s)
  all_goals exact .refl s

theorem readChain_active (a : Arrival) (m : Meet) (s : State) : ActiveKept s (s.readChain a m) := by
  unfold State.readChain
  refine ActiveKept.trans ?_ (answerChain_active a _)
  refine ActiveKept.trans ?_ (.of_frame (readEntries_frame a _))
  exact (ActiveKept.of_frame (setChain_frame s _)).trans (applyBreak_active a m _)

theorem runReader_active (a : Arrival) (m : Meet) (s : State) (r : Reader) : ActiveKept s (s.runReader a m r) := by
  cases r with
  | hop => exact (ActiveKept.of_frame (readHops_frame a s)).trans (settleWork_active m _)
  | chain => exact (readChain_active a m s).trans (settleWork_active m _)
  | switch => exact (readSwitch_active a s).trans (settleWork_active m _)
  | fetch => exact (ActiveKept.of_switch (readFetch_switch a s)).trans (settleWork_active m _)
  | remote => exact (ActiveKept.of_switch (readRemote_switch a s)).trans (settleWork_active m _)

theorem arrive_active (up : Option UpPass) (o : TrailOrder) (s : State) : ActiveKept s (s.arrive up o) := by
  unfold State.arrive
  split
  · exact (ActiveKept.of_switch (State.setCycle_switch s _)).trans (.foldl (runReader_active _ _) _ _)
  · exact .refl s

theorem openCycle_active (s : State) : ActiveKept s s.openCycle := by
  unfold State.openCycle
  split
  · exact .refl s
  · exact (arrive_active none TrailOrder.default s).trans (.of_switch rfl)

/-! The acts of a cycle start: of them only the switch cycle changes the plan and the epoch -/

theorem expireLease_active (p : Port) (s : State) : ActiveKept s (s.expireLease p) :=
  (ActiveKept.of_switch (endSession_engines p _ s).switch).trans (formIfDue_active _)

theorem fill_active (c : Option Client) (s : State) : ActiveKept s (s.fill c).1 := by
  unfold State.fill
  split
  · exact .refl s
  · obtain ⟨epoch, plan, -⟩ := switch_send_keeps s.switch
    exact ⟨plan, epoch⟩
  · exact .of_frame (sendChain_frame _ s)
  · unfold State.sendFetch; split <;> exact .of_switch rfl
  · unfold State.sendRemote; split <;> exact .of_switch rfl

theorem grantSlot_active (s : State) : ActiveKept s s.grantSlot := by
  have granted (c : Option Client) (s : State) : ActiveKept s (s.grantTo c) := by
    unfold State.grantTo
    refine ActiveKept.trans ?_ (.of_frame (tickBringUp_frame _))
    exact (fill_active c s).trans (.of_switch rfl)
  exact (ActiveKept.of_switch (headChecks_switch s)).trans (granted _ _)

theorem runAct_active (m : Tab Sample 64) (s : State) {a : CycleAct} (ha : a ≠ .switch) : ActiveKept s (s.runAct m a) := by
  cases a with
  | lease p => exact .of_led (tickLease_led p s)
  | switch => exact absurd rfl ha
  | probe => exact .of_led (tickProbe_led s)
  | slot => exact grantSlot_active s
  | lead =>
    obtain ⟨epoch, plan⟩ := stepCountdown_keeps s.firstBringUp.switch
    exact (ActiveKept.of_switch (firstBringUp_keeps s).1).trans ⟨plan, epoch⟩

/-- R75: a switch cycle that is due on `s` with batch `b` has made `b`'s next plan active in `t`. -/
structure Switched (s : State) (b : Batch) (t : State) : Prop where
  phase : s.switch.phase = .countdown
  countdown : s.switch.countdown = 0
  batch : s.switch.batch = some b
  plan : t.switch.plan = b.nextPlan
  epoch : t.switch.epoch = s.switch.epoch + 1

/-- What comes after a switch cycle leaves the plan it made active. -/
theorem Switched.trans {s t u : State} {b : Batch} (h : Switched s b t) (k : ActiveKept t u) : Switched s b u :=
  ⟨h.phase, h.countdown, h.batch, k.plan.trans h.plan, k.epoch.trans h.epoch⟩

/-- What the switch act can do: nothing, or the switch cycle that is due. -/
theorem switchCycle_cases (s : State) : s.switchCycle = s ∨ ∃ b, Switched s b s.switchCycle := by
  by_cases h : s.switchReady = true
  · obtain ⟨phase, countdown, b, batch⟩ := (switchReady_iff s).1 h
    have f := switchCycle_router phase countdown batch
    exact .inr ⟨b, phase, countdown, batch, by rw [f.switch, switchChanges_eq], by rw [f.switch, switchChanges_eq]⟩
  · left
    unfold State.switchCycle
    split
    · next b hb => rw [if_neg fun due => h (by rw [State.switchReady, due, hb]; rfl)]
    · rfl

/-- R75: a CYCLE_START leaves the plan and the epoch, or makes the switch cycle at its place among the acts. -/
theorem nextCycle_active (m : Tab Sample 64) (o : List CycleAct) (s : State) :
    ActiveKept s (s.nextCycle m o)
      ∨ ∃ before after b, s.openCycle.actsLeft o = before ++ .switch :: after
          ∧ ActiveKept s (before.foldl (State.runAct m) s.openCycle)
          ∧ Switched (before.foldl (State.runAct m) s.openCycle) b (s.nextCycle m o) := by
  have acts {l : List CycleAct} (hl : .switch ∉ l) (u : State) : ActiveKept u (l.foldl (State.runAct m) u) :=
    foldl_frame_mem .refl .trans (fun s _ ha => runAct_active m s fun e => hl (e ▸ ha)) u
  have opened := openCycle_active s
  have made : ActiveKept ((s.openCycle.actsLeft o).foldl (State.runAct m) s.openCycle) (s.nextCycle m o) := .of_switch rfl
  by_cases h : CycleAct.switch ∈ s.openCycle.actsLeft o
  · obtain ⟨before, after, e⟩ := List.append_of_mem h
    have once : (before ++ CycleAct.switch :: after).Nodup := e ▸ (actsOf_nodup o).filter _
    obtain ⟨hbefore, hafter⟩ := not_or.1 (List.mem_append.not.1 (List.nodup_cons.1 (List.nodup_middle.1 once)).1)
    rw [e, List.foldl_append, List.foldl_cons] at made
    have first := opened.trans (acts hbefore s.openCycle)
    have rest := (acts hafter _).trans made
    rcases switchCycle_cases (before.foldl (State.runAct m) s.openCycle) with same | ⟨b, switched⟩
    · exact .inl (first.trans ((ActiveKept.of_switch (congrArg State.switch same)).trans rest))
    · exact .inr ⟨before, after, b, e, first, switched.trans rest⟩
  · exact .inl ((opened.trans (acts h _)).trans made)

theorem actAlone_active {due : State → Bool} {a : CycleAct} {act : State → State} (h : ∀ s, ActiveKept s (act s)) (s : State) :
    ActiveKept s (s.actAlone due a act) := by
  obtain ⟨-, -, e⟩ | ⟨-, e⟩ := actAlone_cases due a act s <;> rw [e]
  · exact ((openCycle_active s).trans (h _)).trans (.of_switch rfl)
  · exact .refl s

/-- R75: the row SWITCH_CYCLE leaves the plan and the epoch, or makes the switch cycle at the cycle start it begins. -/
theorem switchCycleAlone_active (s : State) :
    ActiveKept s (s.actAlone State.switchReady .switch State.switchCycle)
      ∨ ∃ b, Switched s.openCycle b (s.actAlone State.switchReady .switch State.switchCycle) := by
  obtain ⟨-, -, e⟩ | ⟨-, e⟩ := actAlone_cases State.switchReady .switch State.switchCycle s <;> rw [e]
  · have noted : ActiveKept s.openCycle.switchCycle (s.openCycle.switchCycle.noteAct .switch) := .of_switch rfl
    rcases switchCycle_cases s.openCycle with same | ⟨b, switched⟩
    · exact .inl ((openCycle_active s).trans ((ActiveKept.of_switch (congrArg State.switch same)).trans noted))
    · exact .inr ⟨b, switched.trans noted⟩
  · exact .inl (.refl s)

theorem underGuard_active {c : State → Bool} {f : State → State} (h : ∀ s, ActiveKept s (f s)) (s : State) :
    ActiveKept s (s.underGuard c f) := by
  unfold State.underGuard
  split
  · exact h s
  · exact .refl s

/-! Requests: of them only an accepted restart changes the plan and the epoch -/

theorem requestThen_active {α : Type} {open? : Bool} {p : Port} {b : Sized α} {owner : α → State → State × Response}
    {after : State → State} (h : LeavesSwitch owner) (ha : ∀ s, ActiveKept s (after s)) (s : State) :
    ActiveKept s (s.requestThen open? p b owner after) :=
  requestThen_rel .refl .trans (fun _ _ _ => .of_switch rfl) (fun a s => .of_switch (h a s)) ha s

theorem request_active {α : Type} {open? : Bool} {p : Port} {b : Sized α} {owner : α → State → State × Response}
    (h : LeavesSwitch owner) (s : State) : ActiveKept s (s.request open? p b owner) := requestThen_active h .refl s

/-- What a head held in reset, or not, makes of a command. -/
theorem whenReleased_cases {f : State → State} {s t : State} (e : s.whenReleased f = .next t) : t = s ∨ t = f s := by
  unfold State.whenReleased at e
  cases e
  split
  · exact .inr rfl
  · exact .inl rfl

/-- With the slot empty, a request that sets nothing off is answered, and no more. -/
theorem request_answered {α : Type} {p : Port} {s : State} (h : (s.port p).slot = none) (open? : Bool) (b : Sized α)
    (owner : α → State → State × Response) :
    s.request open? p b owner = (s.takeRequest open? p b owner).1.respond p (s.takeRequest open? p b owner).2 := by
  simp only [State.request, State.requestThen, h, id_eq, ite_self]

theorem slot_respond (p : Port) (r : Response) (s : State) : ((s.respond p r).port p).slot = some r := by
  rw [State.respond, State.port_setPort_same, PortContext.respond]

/-- R64: the Switch Engine after an accepted restart. -/
theorem restartChain_switch (p : Port) (s : State) : (s.restartChain p).switch = s.switch.restarted :=
  (restartChain_router p s).switch

/-- R64, R121: CHAIN_RESTART leaves the plan and the epoch, or is accepted: the plan is empty, the epoch is the next. -/
theorem chainRestart_active (p : Port) (b : Sized Unit) (s : State) :
    ActiveKept s (s.request false p b (State.takeChainRestart p))
      ∨ ((s.port p).slot = none
        ∧ ((s.request false p b (State.takeChainRestart p)).port p).slot = some (reply .ok)
        ∧ (s.request false p b (State.takeChainRestart p)).switch = s.switch.restarted) := by
  have refused (st : Status) : ActiveKept s (s.respond p (reply st)) := .of_switch rfl
  cases hslot : (s.port p).slot with
  | some r => rw [State.request, requestThen_full _ _ _ _ _ _ r hslot]; exact .inl (.of_switch rfl)
  | none =>
    rw [request_answered hslot]
    unfold State.takeRequest
    split
    · exact .inl (refused _)
    · split
      · exact .inl (refused _)
      · unfold State.takeChainRestart
        split
        · exact .inl (refused _)
        · split
          · exact .inl (refused _)
          · exact .inr ⟨rfl, slot_respond p _ _, (State.setPort_switch _ p _).trans (restartChain_switch p s)⟩

/-- The commands that can change the active plan or epoch (R64). -/
def changesPlan : Instr → Bool
  | .deviceReset => true
  | .cycleStart _ _ => true
  | .switchCycle => true
  | .chainRestart _ _ => true
  | _ => false

theorem exec_active_of_hostPort {c : Instr} {p : Port} (hc : hostPort c = some p) (hp : changesPlan c = false) {s t : State}
    (e : exec c s = .next t) : ActiveKept s t := by
  have released {f : State → State} (h : ∀ s, ActiveKept s (f s)) (e : s.whenReleased f = .next t) : ActiveKept s t :=
    whenReleased_keeps .refl h e
  cases c
  case frameError q _ => exact released (fun s => .of_switch (refuse_switch q _ s)) e
  case badRequest q _ _ => exact released (fun s => .of_switch (refuse_switch q _ s)) e
  case responseRead q n => exact released (fun s => .of_switch (State.setPort_switch s q ((s.port q).readOut n))) e
  case attach q _ => exact released (request_active (takeAttach_switch q)) e
  case detach q _ => exact released (requestThen_active (takeDetach_switch q) formIfDue_active) e
  case portStatus q _ => exact released (request_active fun _ _ => rfl) e
  case draftOpen q _ => exact released (request_active (takeDraftOpen_switch q)) e
  case draftClose q _ => exact released (request_active (takeDraftClose_switch q)) e
  case draftResize q _ => exact released (request_active (takeDraftResize_switch q)) e
  case draftSet q _ => exact released (request_active (takeDraftSet_switch q)) e
  case draftDrop q _ => exact released (request_active (takeDraftDrop_switch q)) e
  case draftClear q _ => exact released (request_active (takeDraftClear_switch q)) e
  case draftView q _ => exact released (request_active (takeDraftView_switch q)) e
  case commit q _ => exact released (requestThen_active (takeCommit_switch q) formIfDue_active) e
  case withdraw q _ => exact released (request_active (takeWithdraw_switch q)) e
  case streamInfo q _ => exact released (request_active takeStreamInfo_switch) e
  case listStreams q _ => exact released (request_active takeListStreams_switch) e
  case planInfo q _ => exact released (request_active fun _ _ => rfl) e
  case chainInfo q _ => exact released (request_active takeChainInfo_switch) e
  case chainRestart q _ => cases hp
  case remoteRead q _ => exact released (request_active fun _ => takeRemote_switch q _) e
  case remoteWrite q _ => exact released (request_active fun _ => takeRemote_switch q _) e
  case subscribe q _ => exact released (request_active (takeSubscribe_switch q)) e
  case readQueue q _ => exact released (request_active (takeReadQueue_switch q)) e
  all_goals cases hc

/-- R64 at every other command. -/
theorem exec_active {c : Instr} (hp : changesPlan c = false) {s t : State} (e : exec c s = .next t) : ActiveKept s t := by
  have released {f : State → State} (h : ∀ s, ActiveKept s (f s)) (e : s.whenReleased f = .next t) : ActiveKept s t :=
    whenReleased_keeps .refl h e
  cases c
  case resetRelease => cases e; exact .of_switch rfl
  case trailArrival up o => exact released (arrive_active (some up) o) e
  case receiveWindowClose o => exact released (arrive_active none o) e
  case leaseExpiry p => exact released (actAlone_active (expireLease_active p)) e
  case probeDue => exact released (actAlone_active fun s => .of_led (tickProbe_led s)) e
  case bringupSeek => exact released (actAlone_active grantSlot_active) e
  case batchFormation => exact released formIfDue_active e
  case isolationRecovery p =>
    exact released (underGuard_active fun s => (ActiveKept.of_frame (recoverHop_frame p s)).trans (settleWork_active _ _)) e
  case breakDetected m => exact released (underGuard_active fun s => (breakChain_active s).trans (settleWork_active m _)) e
  case quietCountComplete p => exact released (underGuard_active fun s => .of_frame (leaveJoining_frame p s)) e
  case resyncEntry =>
    exact released (underGuard_active fun s => .of_frame ((moveEntries_frame s).trans (ensureResync_frame _))) e
  case prepareTimeout m => exact released (underGuard_active fun s => (abandon_active _ s).trans (settleWork_active m _)) e
  case settleEnd m => exact released (underGuard_active fun s => (settleEnd_active s).trans (settleWork_active m _)) e
  case deviceReset | cycleStart | switchCycle | chainRestart => cases hp
  all_goals exact exec_active_of_hostPort rfl hp e

/-- Settles O6: the three commands that can change the plan, then every other one (`exec_active`). -/
theorem epochChangesOnlyBySwitchOrRestart : Obligations.EpochChangesOnlyBySwitchOrRestart := by
  unfold Obligations.EpochChangesOnlyBySwitchOrRestart
  intro c s t e hreset
  have kept (k : ActiveKept s t) : t.switch.plan = s.switch.plan ∧ t.switch.epoch = s.switch.epoch := ⟨k.plan, k.epoch⟩
  cases c
  case deviceReset => exact absurd rfl hreset
  case cycleStart m o =>
    rcases whenReleased_cases e with rfl | rfl
    · exact .inl ⟨rfl, rfl⟩
    · rcases nextCycle_active m o s with k | ⟨before, after, b, acts, first, switched⟩
      · exact .inl (kept k)
      · exact .inr ⟨switched.epoch.trans (congrArg (· + 1) first.epoch), before, after, b, acts, switched.phase,
          switched.countdown, switched.batch, switched.plan⟩
  case switchCycle =>
    rcases whenReleased_cases e with rfl | rfl
    · exact .inl ⟨rfl, rfl⟩
    · rcases switchCycleAlone_active s with k | ⟨b, switched⟩
      · exact .inl (kept k)
      · exact .inr ⟨switched.epoch.trans (congrArg (· + 1) (openCycle_active s).epoch), b, switched.phase, switched.countdown,
          switched.batch, switched.plan⟩
  case chainRestart p b =>
    rcases whenReleased_cases e with rfl | rfl
    · exact .inl ⟨rfl, rfl⟩
    · rcases chainRestart_active p b s with k | ⟨slot, answered, sw⟩
      · exact .inl (kept k)
      · exact .inr ⟨by rw [sw]; rfl, slot, answered, by rw [sw]; rfl⟩
  all_goals exact .inl (kept (exec_active rfl e))

end Sys2Proof.Machine


/-! ### The reset line and the cycle counter (R86) -/

namespace Sys2Proof.Machine

/-- Settles O4: the rows that are not about the reset line all wait for it (`State.whenReleased`). -/
theorem resetLineHoldsHead : Obligations.ResetLineHoldsHead := by
  unfold Obligations.ResetLineHoldsHead
  refine ⟨fun c s held notReset notRelease => ?_, fun s => rfl⟩
  have low : ¬s.resetHigh = true := by rw [held]; nofun
  cases c
  case deviceReset => exact absurd rfl notReset
  case resetRelease => exact absurd rfl notRelease
  all_goals exact congrArg Host.Outcome.next (if_neg low)

/-! What a transaction of a host port can do (R173) -/

/-- A transaction of port `p` changes the port's context only, or an owner answers it, and a batch that its answer makes due
forms. -/
def HostStep (p : Port) (s t : State) : Prop :=
  (∃ c, t = s.setPort p c) ∨ ∃ x, Owned s p x ∧ FormFrame (x.1.respond p x.2) t

theorem HostStep.refl (p : Port) (s : State) : HostStep p s s := .inl ⟨s.port p, (s.setPort_self p).symm⟩

theorem requestThen_hostStep {α : Type} {open? : Bool} {p : Port} {b : Sized α} {owner : α → State → State × Response}
    {after : State → State} (h : ∀ a s, Owned s p (owner a s)) (ha : ∀ s, FormFrame s (after s)) (s : State) :
    HostStep p s (s.requestThen open? p b owner after) := by
  have owned := takeRequest_owned open? p b owner s fun a => h a s
  unfold State.requestThen
  split
  · exact .inl ⟨_, rfl⟩
  · dsimp only
    split
    · exact .inr ⟨_, owned, ha _⟩
    · exact .inr ⟨_, owned, .refl _⟩

theorem request_hostStep {α : Type} {open? : Bool} {p : Port} {b : Sized α} {owner : α → State → State × Response}
    (h : ∀ a s, Owned s p (owner a s)) (s : State) : HostStep p s (s.request open? p b owner) :=
  requestThen_hostStep h .refl s

theorem refuse_hostStep (p : Port) (st : Status) (s : State) : HostStep p s (s.refuse p st) := by
  unfold State.refuse
  split <;> exact .inl ⟨_, rfl⟩

theorem exec_hostStep {c : Instr} {p : Port} (hc : hostPort c = some p) {s t : State} (e : exec c s = .next t) :
    HostStep p s t := by
  have released {f : State → State} (h : ∀ s, HostStep p s (f s)) (e : s.whenReleased f = .next t) : HostStep p s t :=
    whenReleased_keeps (.refl p) h e
  cases c <;> cases hc
  case frameError => exact released (refuse_hostStep _ _) e
  case badRequest => exact released (refuse_hostStep _ _) e
  case responseRead => exact released (fun s => .inl ⟨_, rfl⟩) e
  case attach => exact released (request_hostStep (takeAttach_owned _)) e
  case detach => exact released (requestThen_hostStep (takeDetach_owned _) formIfDue_frame) e
  case portStatus => exact released (request_hostStep (takePortStatus_owned _)) e
  case draftOpen => exact released (request_hostStep (takeDraftOpen_owned _)) e
  case draftClose => exact released (request_hostStep (takeDraftClose_owned _)) e
  case draftResize => exact released (request_hostStep (takeDraftResize_owned _)) e
  case draftSet => exact released (request_hostStep (takeDraftSet_owned _)) e
  case draftDrop => exact released (request_hostStep (takeDraftDrop_owned _)) e
  case draftClear => exact released (request_hostStep (takeDraftClear_owned _)) e
  case draftView => exact released (request_hostStep (takeDraftView_owned _)) e
  case commit => exact released (requestThen_hostStep (takeCommit_owned _) formIfDue_frame) e
  case withdraw => exact released (request_hostStep (takeWithdraw_owned _)) e
  case streamInfo => exact released (request_hostStep (takeStreamInfo_owned _)) e
  case listStreams => exact released (request_hostStep (takeListStreams_owned _)) e
  case planInfo => exact released (request_hostStep (takePlanInfo_owned _)) e
  case chainInfo => exact released (request_hostStep (takeChainInfo_owned _)) e
  case chainRestart => exact released (request_hostStep (takeChainRestart_owned _)) e
  case remoteRead => exact released (request_hostStep fun _ => takeRemote_owned _ _) e
  case remoteWrite => exact released (request_hostStep fun _ => takeRemote_owned _ _) e
  case subscribe => exact released (request_hostStep (takeSubscribe_owned _)) e
  case readQueue => exact released (request_hostStep (takeReadQueue_owned _)) e

theorem HostStep.counter {p : Port} {s t : State} (h : HostStep p s t) : t.cycle.counter = s.cycle.counter := by
  obtain ⟨c, rfl⟩ | ⟨x, owned, formed⟩ := h
  · rfl
  · rw [formed.cycle]
    exact owned.counter

/-! The counter (R86) -/

/-- The cycle counter and the acts made ahead of CYCLE_START do not differ. -/
structure CountKept (s t : State) : Prop where
  counter : t.cycle.counter = s.cycle.counter
  begun : t.cycle.begun = s.cycle.begun

theorem CountKept.refl (s : State) : CountKept s s := ⟨rfl, rfl⟩

theorem CycleFrame.countKept {s t : State} (f : CycleFrame s t) : CountKept s t := ⟨f.counter, f.begun⟩

theorem underGuard_countKept {c : State → Bool} {f : State → State} (h : ∀ s, TrailFrame s (f s)) (s : State) :
    CountKept s (s.underGuard c f) := by
  unfold State.underGuard
  split
  · exact (h s).toCycleFrame.countKept
  · exact .refl s

/-- Whether a command is the reset, a cycle start or one act of a cycle start: the rows that can change the counter (R86). -/
def countsCycle : Instr → Bool
  | .deviceReset => true
  | .cycleStart _ _ => true
  | .leaseExpiry _ => true
  | .probeDue => true
  | .bringupSeek => true
  | .switchCycle => true
  | _ => false

/-- R86 at every command that neither resets the device nor belongs to a cycle start. -/
theorem exec_countKept {c : Instr} (hc : countsCycle c = false) {s t : State} (e : exec c s = .next t) : CountKept s t := by
  have released {f : State → State} (h : ∀ s, CountKept s (f s)) (e : s.whenReleased f = .next t) : CountKept s t :=
    whenReleased_keeps .refl h e
  cases c
  case deviceReset | cycleStart | leaseExpiry | probeDue | bringupSeek | switchCycle => cases hc
  case resetRelease => cases e; exact ⟨rfl, rfl⟩
  case trailArrival up o => exact released (fun s => (arrive_cycleFrame (some up) o s).countKept) e
  case receiveWindowClose o => exact released (fun s => (arrive_cycleFrame none o s).countKept) e
  case batchFormation => exact released (fun s => (formIfDue_frame s).toCycleFrame.countKept) e
  case isolationRecovery p =>
    exact released (underGuard_countKept fun s => (recoverHop_frame p s).toTrailFrame.trans (settleWork_frame _ _).toTrailFrame) e
  case breakDetected m =>
    exact released (underGuard_countKept fun s => (breakChain_frame s).trans (settleWork_frame m _).toTrailFrame) e
  case quietCountComplete p => exact released (underGuard_countKept fun s => (leaveJoining_frame p s).toTrailFrame) e
  case resyncEntry =>
    exact released (underGuard_countKept fun s => ((moveEntries_frame s).trans (ensureResync_frame _)).toTrailFrame) e
  case prepareTimeout m =>
    exact released (underGuard_countKept fun s => (abandon_frame _ s).toTrailFrame.trans (settleWork_frame m _).toTrailFrame) e
  case settleEnd m =>
    exact released (underGuard_countKept fun s => (settleEnd_frame s).toTrailFrame.trans (settleWork_frame m _).toTrailFrame) e
  all_goals exact ⟨(exec_hostStep rfl e).counter, (exec_keeps_of_hostPort rfl e).begun⟩

/-- Assumption 22: a cycle start in progress goes on with the counter as it is, or one begins and the counter rises. -/
def BeginsOnce (s t : State) : Prop :=
  (t.cycle.counter = s.cycle.counter ∧ t.cycle.begun.isSome = s.cycle.begun.isSome)
    ∨ (s.cycle.begun = none ∧ t.cycle.counter = s.cycle.counter + 1 ∧ t.cycle.begun.isSome = true)

theorem BeginsOnce.refl (s : State) : BeginsOnce s s := .inl ⟨rfl, rfl⟩

theorem actAlone_beginsOnce {due : State → Bool} {a : CycleAct} {act : State → State} (h : ∀ s, CycleFrame s (act s)) (s : State) :
    BeginsOnce s (s.actAlone due a act) := by
  obtain ⟨-, -, e⟩ | ⟨-, e⟩ := actAlone_cases due a act s
  · have counter : (s.actAlone due a act).cycle.counter = s.openCycle.cycle.counter := by
      rw [e]; exact (h s.openCycle).counter
    have begun : (s.actAlone due a act).cycle.begun.isSome = s.openCycle.cycle.begun.isSome := by
      rw [e, noteAct_eq, State.setCycle_cycle, Option.isSome_map, (h s.openCycle).begun]
    rcases openCycle_cases s with ⟨same, -⟩ | ⟨first, rises, -⟩
    · exact .inl (by rw [counter, begun, same]; exact ⟨rfl, rfl⟩)
    · exact .inr ⟨first, counter.trans rises, begun.trans (openCycle_begun_isSome s)⟩
  · rw [e]
    exact .refl s

/-- R86: after a CYCLE_START the counter is one more than before its cycle start began. -/
theorem nextCycle_counter (m : Tab Sample 64) (o : List CycleAct) (s : State) :
    (s.nextCycle m o).cycle.counter = if s.cycle.begun = none then s.cycle.counter + 1 else s.cycle.counter := by
  have made : (s.nextCycle m o).cycle.counter = s.openCycle.cycle.counter := (acts_cycleFrame m _ s.openCycle).counter
  rcases openCycle_cases s with ⟨same, l, begun⟩ | ⟨first, rises, -⟩
  · rw [made, same, begun]; rfl
  · rw [made, rises, if_pos first]

/-- Settles O5: the reset, the CYCLE_START, the rows that are one act of a cycle start, then every other command
(`exec_countKept`). -/
theorem counterChangesOnlyAtCycleStart : Obligations.CounterChangesOnlyAtCycleStart := by
  unfold Obligations.CounterChangesOnlyAtCycleStart
  intro c s t e
  have released {f : State → State} (h : ∀ s, BeginsOnce s (f s)) (e : s.whenReleased f = .next t) : BeginsOnce s t :=
    whenReleased_keeps .refl h e
  have kept (k : CountKept s t) : t.cycle.counter = s.cycle.counter ∧ t.cycle.begun = s.cycle.begun := ⟨k.counter, k.begun⟩
  cases c
  case deviceReset => cases e; exact ⟨rfl, rfl⟩
  case cycleStart m o =>
    intro high
    have row : exec (.cycleStart m o) s = .next (s.nextCycle m o) := congrArg Host.Outcome.next (if_pos high)
    cases row.symm.trans e
    exact ⟨nextCycle_counter m o s, nextCycle_begun m o s⟩
  case leaseExpiry p => exact released (actAlone_beginsOnce (expireLease_cycleFrame p)) e
  case probeDue => exact released (actAlone_beginsOnce fun s => (tickProbe_frame s).toCycleFrame) e
  case bringupSeek => exact released (actAlone_beginsOnce grantSlot_cycleFrame) e
  case switchCycle => exact released (actAlone_beginsOnce fun s => (switchCycle_frame s).toCycleFrame) e
  all_goals exact kept (exec_countKept rfl e)

end Sys2Proof.Machine


/-! ### The control slot goes to one client (R135 to R137, R141) -/

namespace Sys2Proof.Machine

/-! The round-robin order (R137) -/

/-- How far a port stands behind the first one in the round-robin order after the last granted port. -/
def turnOf (last p : Port) : Nat := (p - last - 1).val

theorem mem_hostOrder (last p : Port) : p ∈ hostOrder last := by
  revert last p
  decide

theorem hostOrder_pairwise (last : Port) : (hostOrder last).Pairwise (turnOf last · < turnOf last ·) := by
  revert last
  decide

/-- The first port of the order with a property comes no later than any other with it. -/
theorem turnOf_le_of_find {last p q : Port} {f : Port → Bool} (h : (hostOrder last).find? f = some p) (hq : f q = true) :
    turnOf last p ≤ turnOf last q := by
  obtain ⟨-, before, after, split, none⟩ := List.find?_eq_some_iff_append.1 h
  have ordered := hostOrder_pairwise last
  have listed := mem_hostOrder last q
  rw [split] at ordered listed
  rcases List.mem_append.1 listed with hb | hb
  · exact absurd hq (by simpa using none q hb)
  · rcases List.mem_cons.1 hb with rfl | ha
    · exact le_rfl
    · exact ((List.pairwise_cons.1 (List.pairwise_append.1 ordered).2.1).1 q ha).le

/-! The clients with work (R136, R137) -/

theorem hostClient_isHost {s : State} {c : Client} (h : s.hostClient = some c) : ∃ p, c = .host p := by
  obtain ⟨p, -, rfl⟩ := Option.map_eq_some_iff.1 h
  exact ⟨p, rfl⟩

theorem hostClient_eq_none_iff (s : State) : s.hostClient = none ↔ ∀ p, s.remoteQueue p = [] := by
  simp [State.hostClient, List.find?_eq_none, mem_hostOrder]

/-- R137: the host client is the port first in the round-robin order with a request. -/
theorem hostClient_first {s : State} {p : Port} (h : s.hostClient = some (.host p)) :
    s.remoteQueue p ≠ [] ∧ ∀ q, s.remoteQueue q ≠ [] → turnOf s.arbiter.lastGranted p ≤ turnOf s.arbiter.lastGranted q := by
  obtain ⟨p', found, e⟩ := Option.map_eq_some_iff.1 h
  cases e
  refine ⟨?_, fun q hq => turnOf_le_of_find found (by simpa using hq)⟩
  simpa using List.find?_some found

/-- R136: a system client is no host port. -/
theorem systemClient_ne_host (s : State) (p : Port) : s.systemClient ≠ some (.host p) := by
  unfold State.systemClient
  split
  · simp
  · split
    · simp
    · split <;> simp

/-! The client chosen in RUNNING (R135, R136, Table 8-2) -/

section
variable {s : State} (running : s.chain.state = .running)
include running

theorem chosen_running :
    s.chosen = if s.cycle.counter.getLsbD 0 then s.hostClient.or s.systemClient else s.systemClient.or s.hostClient := by
  rw [State.chosen, running]

/-- A host port is chosen as the host client, on a system turn only without a system client. -/
theorem chosen_host {p : Port} (h : s.chosen = some (.host p)) :
    s.hostClient = some (.host p) ∧ (s.cycle.counter.getLsbD 0 = false → s.systemClient = none) := by
  rw [chosen_running running] at h
  split at h
  · next odd =>
    refine ⟨?_, fun even => absurd odd (by rw [even]; nofun)⟩
    rcases Option.or_eq_some_iff.1 h with host | ⟨-, system⟩
    · exact host
    · exact absurd system (systemClient_ne_host s p)
  · rcases Option.or_eq_some_iff.1 h with system | ⟨nothing, host⟩
    · exact absurd system (systemClient_ne_host s p)
    · exact ⟨host, fun _ => nothing⟩

/-- Without a host grant the system clients' turn counts, and on a host turn, or with no grant, no port had a request. -/
theorem chosen_not_host (h : ∀ p, s.chosen ≠ some (.host p)) :
    s.chosen = s.systemClient ∧ (s.cycle.counter.getLsbD 0 = true ∨ s.chosen = none → s.hostClient = none) := by
  have noHost (wins : ∀ c, s.hostClient = some c → s.chosen = some c) : s.hostClient = none :=
    Option.eq_none_iff_forall_ne_some.2 fun c hc => by
      obtain ⟨p, rfl⟩ := hostClient_isHost hc
      exact h p (wins _ hc)
  have order := chosen_running running
  split at order
  · have none : s.hostClient = none := noHost fun c hc => by rw [order, hc]; rfl
    exact ⟨by rw [order, none]; rfl, fun _ => none⟩
  · next even =>
    cases hsys : s.systemClient with
    | none =>
      have none : s.hostClient = none := noHost fun c hc => by rw [order, hsys, hc]; rfl
      exact ⟨by rw [order, hsys, none]; rfl, fun _ => none⟩
    | some c =>
      have e : s.chosen = some c := by rw [order, hsys]; rfl
      exact ⟨e, fun idle => idle.elim (fun odd => absurd odd even) fun none => by rw [e] at none; cases none⟩

end

/-! What the control slot leaves (R88, R141, R142) -/

theorem headChecks_chain (s : State) : s.headChecks.chain = s.chain :=
  foldl_frame (R := fun s t : State => t.chain = s.chain) (fun _ => rfl) (fun a b => b.trans a)
    (fun s p => (RouterFrame.foldl (failRemote_frame p _) _ (s.setRemoteQueue p _)).chain) allPorts s

/-- The host ports, the drafts and the commit queue do not differ. -/
structure StagingKept (s t : State) : Prop where
  ports : t.ports = s.ports
  drafts : t.drafts = s.drafts
  commits : t.commits = s.commits

theorem StagingKept.refl (s : State) : StagingKept s s := ⟨rfl, rfl, rfl⟩

theorem StagingKept.trans {s t u : State} (a : StagingKept s t) (b : StagingKept t u) : StagingKept s u :=
  ⟨b.ports.trans a.ports, b.drafts.trans a.drafts, b.commits.trans a.commits⟩

theorem StagingKept.of_frame {s t : State} (f : ChainFrame s t) : StagingKept s t := ⟨f.ports, f.drafts, f.commits⟩

theorem headChecks_staging (s : State) : StagingKept s s.headChecks :=
  foldl_frame .refl .trans (fun s p =>
    (StagingKept.mk rfl rfl rfl : StagingKept s (s.setRemoteQueue p _)).trans
      (.of_frame (RouterFrame.foldl (failRemote_frame p _) _ _).toChainFrame)) allPorts s

theorem fill_staging (c : Option Client) (s : State) : StagingKept s (s.fill c).1 := by
  unfold State.fill
  split
  · exact .refl s
  · exact ⟨rfl, rfl, rfl⟩
  · exact .of_frame (sendChain_frame _ s)
  · unfold State.sendFetch; split <;> exact ⟨rfl, rfl, rfl⟩
  · unfold State.sendRemote; split <;> exact ⟨rfl, rfl, rfl⟩

theorem putMessage_staging (c : Option Client) (m : ControlMsg) (s : State) : StagingKept s (s.putMessage c m) := ⟨rfl, rfl, rfl⟩

theorem grantSlot_staging (s : State) : StagingKept s s.grantSlot := by
  unfold State.grantSlot State.grantTo
  refine ((headChecks_staging s).trans ?_).trans (.of_frame (tickBringUp_frame _))
  exact (fill_staging _ s.headChecks).trans (putMessage_staging _ _ _)

/-! What the control slot writes (R88, R135, R137) -/

theorem fill_arbiter_host (p : Port) (s : State) : (s.fill (some (.host p))).1.arbiter = { s.arbiter with lastGranted := p } :=
  (sendRemote_frame p _).arbiter

theorem fill_arbiter_other {c : Option Client} (h : ∀ p, c ≠ some (.host p)) (s : State) :
    (s.fill c).1.arbiter = s.arbiter := by
  unfold State.fill
  split
  · rfl
  · rfl
  · exact (sendChain_frame _ s).arbiter
  · exact (sendFetch_frame s).arbiter
  · next p => exact absurd rfl (h p)

theorem grantTo_arbiter (c : Option Client) (s : State) :
    (s.grantTo c).arbiter = { (s.fill c).1.arbiter with grant := c } :=
  (tickBringUp_frame _).arbiter

/-- R137: a host grant becomes the last granted port. -/
theorem grantTo_lastGranted_host (p : Port) (s : State) : (s.grantTo (some (.host p))).arbiter.lastGranted = p := by
  rw [grantTo_arbiter, fill_arbiter_host]

theorem grantTo_lastGranted_other {c : Option Client} (h : ∀ p, c ≠ some (.host p)) (s : State) :
    (s.grantTo c).arbiter.lastGranted = s.arbiter.lastGranted := by
  rw [grantTo_arbiter, fill_arbiter_other h]

theorem grantTo_grant (c : Option Client) (s : State) : (s.grantTo c).arbiter.grant = c := by rw [grantTo_arbiter]

/-- R88: the record of the cycle names the client and the message. -/
theorem grantTo_record (c : Option Client) (s : State) :
    (s.grantTo c).cycle.record
      = some { client := c, target := (s.grantTo c).cycle.msg.target, kind := (s.grantTo c).cycle.msg.kind } := by
  rw [State.grantTo, (tickBringUp_frame _).cycle]
  rfl

/-- Settles O36: the grant is the client chosen after the head checks; a host port (`chosen_host`), or not
(`chosen_not_host`). -/
theorem slotGoesToOneClient : Obligations.SlotGoesToOneClient := by
  unfold Obligations.SlotGoesToOneClient
  rintro s t running rfl
  have checked := headChecks_frame s
  have staging := grantSlot_staging s
  have active := grantSlot_active s
  have streams := grantSlot_streams s
  have running' : s.headChecks.chain.state = .running := by rw [headChecks_chain]; exact running
  rw [← checked.cycle, ← checked.arbiter]
  rw [State.grantSlot] at staging active streams ⊢
  generalize s.headChecks = u at staging active streams running' ⊢
  rw [grantTo_grant]
  refine ⟨fun p granted => ?_, fun other => ?_, grantTo_record _ u, staging.ports, streams, staging.drafts, staging.commits,
    active.plan, active.epoch⟩
  · obtain ⟨host, system⟩ := chosen_host running' granted
    obtain ⟨work, first⟩ := hostClient_first host
    exact ⟨by rw [granted]; exact grantTo_lastGranted_host p u, work, first, system⟩
  · obtain ⟨system, idle⟩ := chosen_not_host running' other
    exact ⟨grantTo_lastGranted_other other u, system, fun h => (hostClient_eq_none_iff u).1 (idle h)⟩

end Sys2Proof.Machine


/-! ### The trail arrival (R88, R95, R96, R109) -/

namespace Sys2Proof.Machine

/-- Last reach and last trail missing of the chain (R104). -/
def ChainManager.lastTrail (c : ChainManager) : Nat × Bool := (c.lastReach, c.lastMissing)

/-! Of the changes of the chain only the reading of a trail writes them (R109) -/

namespace ChainManager

variable (c : ChainManager)

@[simp] theorem lastTrail_setEntry (p : Nat) (e : ChainEntry) : (c.setEntry p e).lastTrail = c.lastTrail := by
  simp [lastTrail]

theorem lastTrail_mapEntries (f : Nat → ChainEntry) : (c.mapEntries f).lastTrail = c.lastTrail := by
  obtain ⟨-, -, -, -, -, reach, missing⟩ := c.mapEntries_keeps f
  rw [lastTrail, reach, missing, lastTrail]

theorem lastTrail_clearBreak : c.clearBreak.lastTrail = c.lastTrail := rfl

theorem lastTrail_restBreak : c.restBreak.lastTrail = c.lastTrail := by
  unfold restBreak
  split <;> rfl

theorem lastTrail_countShort (reach : Nat) : (c.countShort reach).lastTrail = c.lastTrail := by
  unfold countShort
  split
  · rfl
  · split <;> rfl

theorem lastTrail_endChanged : c.endChanged.lastTrail = c.lastTrail := by
  unfold endChanged
  split <;> rfl

theorem lastTrail_bringUpNext (p : Nat) : (c.bringUpNext p).lastTrail = c.lastTrail := by
  unfold bringUpNext
  split <;> rfl

theorem lastTrail_ensureResync : c.ensureResync.lastTrail = c.lastTrail := by
  unfold ensureResync
  split
  · rfl
  · split <;> rfl

theorem lastTrail_dropResync (ps : List Nat) : (c.dropResync ps).lastTrail = c.lastTrail := by
  unfold dropResync
  split
  · split <;> rfl
  · rfl

theorem lastTrail_loseEntries (ps : List Nat) : (ps.foldl loseEntry c).lastTrail = c.lastTrail :=
  foldl_frame (R := fun c d : ChainManager => d.lastTrail = c.lastTrail) (fun _ => rfl) (fun a b => b.trans a)
    (fun c _ => c.lastTrail_setEntry _ _) ps c

theorem lastTrail_lose (ps : List Nat) : (c.lose ps).lastTrail = c.lastTrail := by
  have rested : ((ps.foldl loseEntry c).dropResync ps).restBreak.lastTrail = c.lastTrail := by
    rw [lastTrail_restBreak, lastTrail_dropResync, lastTrail_loseEntries]
  unfold lose
  dsimp only
  split
  · exact rested
  · exact (lastTrail_endChanged _).trans rested
  · exact rested

end ChainManager

/-- Last reach and last trail missing do not differ. -/
def LastKept (s t : State) : Prop := t.chain.lastTrail = s.chain.lastTrail

namespace LastKept

theorem refl (s : State) : LastKept s s := rfl

theorem trans {s t u : State} (a : LastKept s t) (b : LastKept t u) : LastKept s u := Eq.trans b a

theorem foldl {β : Type} {f : State → β → State} (h : ∀ s x, LastKept s (f s x)) (l : List β) (s : State) :
    LastKept s (l.foldl f s) := foldl_frame .refl .trans h l s

theorem of_chain {s t : State} (e : t.chain = s.chain) : LastKept s t := congrArg ChainManager.lastTrail e

theorem of_frame {s t : State} (f : StreamFrame s t) : LastKept s t := of_chain f.chain

theorem of_engines {s t : State} (f : EnginesKept s t) : LastKept s t := of_chain f.chain

/-- A change of the chain that leaves them, its report to the Router and the recomputation it calls for. -/
theorem report {s t : State} {c : ChainManager} (e : c.lastTrail = s.chain.lastTrail) (f : StreamFrame (s.setChain c) t) :
    LastKept s t := (congrArg ChainManager.lastTrail f.chain).trans e

theorem setChain {s : State} {c : ChainManager} (e : c.lastTrail = s.chain.lastTrail) : LastKept s (s.setChain c) := e

theorem setEntry (s : State) (p : Nat) (e : ChainEntry) : LastKept s (s.setEntry p e) := s.chain.lastTrail_setEntry p e

theorem setStale (b : Bool) (s : State) (p : Nat) : LastKept s (s.setStale b p) := by
  unfold State.setStale
  split
  · exact refl s
  · exact (setEntry s p _).trans (of_frame (recompute_frame _))

theorem setOutOfStep (s : State) (p : Nat) : LastKept s (s.setOutOfStep p) := by
  unfold State.setOutOfStep
  split
  · exact refl s
  · exact (setEntry s p _).trans (of_frame (recompute_frame _))

end LastKept

/-! Batches and switches (R61, R62, R79, R80, R115) -/

theorem handOver_last (v : Validation) (s : State) : LastKept s (s.handOver v) := by
  rw [handOver_eq]
  exact ((LastKept.of_engines (accepting_engines s v)).trans (.foldl (LastKept.setStale true) _ _)).trans (.of_chain rfl)

theorem formIfDue_last (s : State) : LastKept s s.formIfDue := by
  have rejected : LastKept s s.rejecting := .of_engines (rejecting_engines s)
  unfold State.formIfDue
  split
  · rw [formBatch_eq]
    split
    · exact rejected.trans (handOver_last _ _)
    · split
      · exact rejected
      · exact rejected.trans (.of_chain (completeSettings_keeps _ _).2.1)
  · exact .refl s

theorem abandon_last (w : AbandonReason) (s : State) : LastKept s (s.abandon w) := by
  cases hb : s.switch.batch with
  | none => rw [State.abandon, hb]; exact .refl s
  | some b =>
    have unmarked : LastKept s (State.unmarkStales b.stale { s with streams := s.streams.map Stream.restored }) :=
      (LastKept.of_frame (streams_frame s _)).trans (.foldl (LastKept.setStale false) _ _)
    have undone : LastKept s (s.undoBatch b) :=
      (unmarked.trans (.of_engines (returnDrafts_engines _ _))).trans (.of_chain rfl)
    exact undone.trans (.of_frame (abandon_router hb w).toStreamFrame)

theorem abandonOnLoss_last (ps : List Nat) (s : State) : LastKept s (s.abandonOnLoss ps) := by
  unfold State.abandonOnLoss
  split
  · exact abandon_last _ s
  · exact .refl s

theorem settleEnd_last (s : State) : LastKept s s.settleEnd := by
  have marked (s : State) (x : Transfer) : LastKept s (s.markUnsettled x) := by
    unfold State.markUnsettled
    split
    · split
      · exact .setStale true s _
      · exact .setOutOfStep s _
    · exact .refl s
  exact (LastKept.foldl marked s.switch.transfers s).trans (.of_chain rfl)

theorem readSwitch_last (a : Arrival) (s : State) : LastKept s (s.readSwitch a) := by
  cases h : s.switch.phase with
  | idle => rw [State.readSwitch, h]; exact .refl s
  | prepare =>
    rw [readSwitch_prepare h, State.readPrepare]
    split
    · exact .refl s
    · split
      · exact abandon_last _ s
      · exact .of_chain rfl
  | countdown => rw [State.readSwitch, h]; exact .of_chain rfl
  | settle =>
    have settling : LastKept s (s.setSwitch (s.switch.readSettle a)) := .of_chain rfl
    rw [readSwitch_settle h]
    split
    · exact settling.trans (settleEnd_last _)
    · exact settling

/-! Hops, remote access and event fetch -/

theorem readHops_last (a : Arrival) (s : State) : LastKept s (s.readHops a) := by
  have graded (s' : State) (p : Nat) : LastKept s' (s'.gradeHop a.trail s.chain.endM p) := by
    unfold State.gradeHop
    split
    · exact .setEntry s' p _
    · exact .refl s'
  exact (LastKept.foldl graded positions s).trans (.of_frame (reportHops_frame _ _))

theorem loseRemote_chain (ps : List Nat) (s : State) (p : Port) : (s.loseRemote ps p).chain = s.chain :=
  (RouterFrame.foldl (failRemote_frame p _) _ (s.setRemoteQueue p _)).chain

theorem readRemote_chain (a : Arrival) (s : State) : (s.readRemote a).chain = s.chain := by
  have answered (o : Outstanding) (s : State) : (s.answerRemote a o).chain = s.chain := by
    unfold State.answerRemote
    split
    · exact (remoteResult_frame s _ _ _).chain
    · split
      · rfl
      · exact (remoteResult_frame s _ _ _).chain
  unfold State.readRemote
  split
  · split
    · rfl
    · exact answered _ _
  · rfl

theorem readFetch_chain (a : Arrival) (s : State) : (s.readFetch a).chain = s.chain := by
  have taken (p : Nat) (ans : Option Answer) (s : State) : (s.takeEvent p ans).chain = s.chain := by
    unfold State.takeEvent
    split
    · dsimp only
      split
      · split
        · exact (raise_frame _ _).chain
        · rfl
      · rfl
    · rfl
  have answered : (s.answerFetch a).chain = s.chain := by
    unfold State.answerFetch
    split
    · exact taken _ _ _
    · rfl
  unfold State.readFetch State.readPending
  split <;> exact answered

/-! The chain: losses, moves and answers (R108, R110 to R118) -/

theorem moveEntry_last (s : State) (p : Nat) : LastKept s (s.moveEntry p) := by
  unfold State.moveEntry
  split
  · exact .report (s.chain.lastTrail_setEntry p _) (raiseRecompute_frame _ _)
  · split
    · exact .report (s.chain.lastTrail_setEntry p _) (recompute_frame _)
    · exact .refl s

theorem moveEntries_last (s : State) : LastKept s s.moveEntries := .foldl moveEntry_last positions s

theorem settleWork_last (m : Meet) (s : State) : LastKept s (s.settleWork m) := by
  have resynced (s : State) : LastKept s s.ensureResync := s.chain.lastTrail_ensureResync
  cases m
  · exact ((moveEntries_last s).trans (formIfDue_last _)).trans (resynced _)
  · exact ((formIfDue_last s).trans (moveEntries_last _)).trans (resynced _)

theorem losePositions_last (ps : List Nat) (s : State) : LastKept s (s.losePositions ps) := by
  have reported (s : State) : LastKept s (s.reportLosses ps) := by
    unfold State.reportLosses
    refine LastKept.trans ?_ (.foldl (fun s p => .of_chain (loseRemote_chain ps s p)) _ _)
    exact ((LastKept.of_frame (recompute_frame s)).trans (abandonOnLoss_last ps _)).trans (.of_chain (State.setFetch_chain _ _))
  unfold State.losePositions
  split
  · exact .refl s
  · refine LastKept.trans ?_ (reported _)
    exact .report (s.chain.lastTrail_lose ps) (.foldl (fun s _ => (raise_frame s _).toStreamFrame) _ _)

theorem applyBreak_last (a : Arrival) (m : Meet) (s : State) : LastKept s (s.applyBreak a m) := by
  have counted : LastKept s (s.setChain (s.chain.countShort a.trail.reach)) := s.chain.lastTrail_countShort _
  have broken (s : State) : LastKept s s.breakChain :=
    (LastKept.setChain s.chain.lastTrail_clearBreak).trans (losePositions_last _ _)
  unfold State.applyBreak
  dsimp only
  split
  · exact counted.trans ((broken _).trans (settleWork_last m _))
  · exact counted

theorem readEntries_last (a : Arrival) (s : State) : LastKept s (s.readEntries a) :=
  (LastKept.setChain (s.chain.lastTrail_mapEntries _)).trans (moveEntries_last _)

theorem enrollByProbe_last (p : Nat) (i : Identity) (s : State) : LastKept s (s.enrollByProbe p i) := by
  have joined (e : ChainEntry) : (s.chain.setEntry p e).endChanged.lastTrail = s.chain.lastTrail := by
    rw [ChainManager.lastTrail_endChanged, ChainManager.lastTrail_setEntry]
  have marked (t : State) : StreamFrame t (t.markReplaced p) := streams_frame t _
  unfold State.enrollByProbe
  split
  · split
    · exact .report (joined _) (raiseRecompute_frame _ _)
    · exact .report (joined _) ((marked _).trans ((raise_frame _ _).toStreamFrame.trans (raiseRecompute_frame _ _)))
  · exact .report (joined _) (raiseRecompute_frame _ _)

theorem answerSeek_last (p : Nat) (ans : Option Answer) (s : State) : LastKept s (s.answerSeek p ans) := by
  have enrolled (i : Identity) : LastKept s (s.enrollInBringUp p i) :=
    .report (by rw [ChainManager.lastTrail_bringUpNext, ChainManager.lastTrail_setEntry]) (raiseRecompute_frame _ _)
  unfold State.answerSeek
  split
  · split
    · split
      · exact enrolled _
      · split
        · rfl
        · exact .refl s
    · exact .refl s
  · exact .refl s

theorem answerProbe_last (p : Nat) (ans : Option Answer) (s : State) : LastKept s (s.answerProbe p ans) := by
  unfold State.answerProbe
  split
  · split
    · exact enrollByProbe_last p _ s
    · exact .refl s
  · exact .refl s

theorem answerExtend_last (p : Nat) (ans : Option Answer) (s : State) : LastKept s (s.answerExtend p ans) := by
  unfold State.answerExtend
  split <;> rfl

theorem answerResync_last (p : Nat) (ans : Option Answer) (s : State) : LastKept s (s.answerResync p ans) := by
  have sealed : ({ s.chain.setEntry p (s.entry p).resynced with resync := none } : ChainManager).lastTrail = s.chain.lastTrail :=
    s.chain.lastTrail_setEntry p _
  have done : LastKept s (s.resyncDone p) := .report sealed (raiseRecompute_frame _ _)
  have failed : LastKept s (s.resyncFailed p) := by
    unfold State.resyncFailed
    split
    · rfl
    · exact losePositions_last _ s
  unfold State.answerResync
  split
  · split
    · split
      · exact done
      · exact failed
    · exact .refl s
  · exact .refl s

theorem answerChain_last (a : Arrival) (s : State) : LastKept s (s.answerChain a) := by
  unfold State.answerChain
  split
  · exact answerSeek_last _ _ s
  · exact answerExtend_last _ _ s
  · exact answerResync_last _ _ s
  · exact answerProbe_last _ _ s
  all_goals exact .refl s

/-! The readers of one trail (R95, R109) -/

/-- R109: the Chain Manager's reading of a trail sets them. -/
theorem readChain_lastTrail (a : Arrival) (m : Meet) (s : State) :
    (s.readChain a m).chain.lastTrail = (a.trail.reach, a.trail.missing) :=
  (((applyBreak_last a m (s.setChain (s.chain.seeTrail a.trail))).trans (readEntries_last a _)).trans (answerChain_last a _) :)

theorem runReader_last (a : Arrival) (m : Meet) (s : State) {r : Reader} (hr : r ≠ .chain) : LastKept s (s.runReader a m r) := by
  cases r with
  | hop => exact (readHops_last a s).trans (settleWork_last m _)
  | chain => exact absurd rfl hr
  | switch => exact (readSwitch_last a s).trans (settleWork_last m _)
  | fetch => exact (LastKept.of_chain (readFetch_chain a s)).trans (settleWork_last m _)
  | remote => exact (LastKept.of_chain (readRemote_chain a s)).trans (settleWork_last m _)

theorem runReader_chain_lastTrail (a : Arrival) (m : Meet) (s : State) :
    (s.runReader a m .chain).chain.lastTrail = (a.trail.reach, a.trail.missing) :=
  Eq.trans (settleWork_last m _) (readChain_lastTrail a m s)

/-- Once the Chain Manager has read the trail, the last trail is this one, whatever the readers' order. -/
theorem readers_lastTrail (a : Arrival) (m : Meet) {l : List Reader} (hl : .chain ∈ l) (s : State) :
    (l.foldl (State.runReader a m) s).chain.lastTrail = (a.trail.reach, a.trail.missing) := by
  obtain ⟨before, after, rfl⟩ := List.append_of_mem hl
  rw [List.foldl_append, List.foldl_cons]
  refine List.foldlRecOn (motive := fun s : State => s.chain.lastTrail = (a.trail.reach, a.trail.missing)) after _
    (runReader_chain_lastTrail a m _) fun s read r _ => ?_
  by_cases hr : r = .chain
  · rw [hr]; exact runReader_chain_lastTrail a m s
  · exact Eq.trans (runReader_last a m s hr) read

/-! The trail handed to the readers (R95, R96) -/

theorem length_readEntries (place : Nat) (l : List (Tab Byte 6)) : (readEntries place l).length = l.length := by
  induction l generalizing place with
  | nil => rfl
  | cons b l ih => rw [readEntries, List.length_cons, ih, List.length_cons]

/-- R96: the reach of a sorted trail is the number of its entries, at most 15. -/
theorem reach_sortTrail (up : UpPass) : (sortTrail up).reach = min 15 up.trail.length := by
  rw [Trail.reach, sortTrail, length_readEntries, List.length_take, List.length_reverse]

/-- R88, R95: a trail arrival within the window. -/
theorem arrive_taken {s : State} (hw : s.cycle.window = true) (up : Option UpPass) (o : TrailOrder) :
    (s.arrive up o).cycle = s.cycle.arrived up
      ∧ (s.arrive up o).chain.lastTrail = ((s.arrival up).trail.reach, (s.arrival up).trail.missing)
      ∧ (s.arrive up o).ports = s.ports ∧ (s.arrive up o).arbiter = s.arbiter := by
  have f := arrive_frame up o s hw
  refine ⟨f.cycle, ?_, f.ports, f.arbiter⟩
  rw [State.arrive, if_pos hw]
  exact readers_lastTrail _ _ (mem_complete _ _ _ (by decide)) _

/-- Settles O35: the two ways a cycle gets its trail arrival (`arrive_taken`), then both outside the window. -/
theorem trailArrivalIsTaken : Obligations.TrailArrivalIsTaken := by
  unfold Obligations.TrailArrivalIsTaken
  intro up o s high
  have row (up : Option UpPass) : s.whenReleased (State.arrive up o) = .next (s.arrive up o) :=
    congrArg Host.Outcome.next (if_pos high)
  refine ⟨fun hw => ?_, fun hw => ?_, fun hw => ⟨?_, ?_⟩⟩
  · obtain ⟨cycle, last, ports, arbiter⟩ := arrive_taken hw (some up) o
    obtain ⟨reach, missing⟩ := Prod.mk.inj last
    exact ⟨_, row (some up), cycle, reach.trans (reach_sortTrail up), missing, ports, arbiter⟩
  · obtain ⟨cycle, last, ports, arbiter⟩ := arrive_taken hw none o
    obtain ⟨reach, missing⟩ := Prod.mk.inj last
    exact ⟨_, row none, cycle, reach, missing, ports, arbiter⟩
  · exact (row (some up)).trans (by rw [arrive_closed _ _ _ hw])
  · exact (row none).trans (by rw [arrive_closed _ _ _ hw])

end Sys2Proof.Machine

/-! ### Marks, moves and the resync transfer: what they leave of the chain (R108, R115 to R117) -/

namespace Sys2Proof.Machine

/-! One entry -/

/-- What a mark, an exit from JOINING or an entry into RESYNCING makes of an entry: its state, its marks and its attempts
change at most, it stays enrolled or not, a RESYNCING entry stays in that state, and one that is not enrolled keeps its state
and its attempts. -/
structure ChainEntry.Stirred (e f : ChainEntry) : Prop where
  rest : f = { e with state := f.state, stale := f.stale, outOfStep := f.outOfStep, attempts := f.attempts }
  enrolled : f.enrolled = e.enrolled
  resyncing : e.state = .resyncing → f.state = .resyncing
  outside : e.enrolled = false → f.state = e.state ∧ f.attempts = e.attempts

namespace ChainEntry.Stirred

theorem refl (e : ChainEntry) : e.Stirred e := ⟨rfl, rfl, id, fun _ => ⟨rfl, rfl⟩⟩

theorem trans {e f g : ChainEntry} (a : e.Stirred f) (b : f.Stirred g) : e.Stirred g where
  rest := by rw [b.rest, a.rest]
  enrolled := b.enrolled.trans a.enrolled
  resyncing h := b.resyncing (a.resyncing h)
  outside h :=
    have ⟨state, attempts⟩ := b.outside (a.enrolled.trans h)
    ⟨state.trans (a.outside h).1, attempts.trans (a.outside h).2⟩

theorem stale (e : ChainEntry) (b : Bool) : e.Stirred { e with stale := b } := ⟨rfl, rfl, id, fun _ => ⟨rfl, rfl⟩⟩

theorem outOfStep (e : ChainEntry) (b : Bool) : e.Stirred { e with outOfStep := b } := ⟨rfl, rfl, id, fun _ => ⟨rfl, rfl⟩⟩

end ChainEntry.Stirred

theorem ChainEntry.proven_iff (e : ChainEntry) : e.proven = true ↔ e.state = .joining ∧ e.quiet = 16 := by
  simp [ChainEntry.proven, Config.quietTarget]

/-- R108: what leaves JOINING for READY. -/
theorem ChainEntry.readies_iff (e : ChainEntry) :
    e.readies = true ↔ (e.state = .joining ∧ e.quiet = 16) ∧ e.rejoined = false ∧ e.stale = false ∧ e.outOfStep = false := by
  simp [ChainEntry.readies, ChainEntry.proven_iff, ChainEntry.marked, and_assoc]

/-- R116: what enters RESYNCING. -/
theorem resyncs_iff (c : ChainManager) (idle : Bool) (p : Nat) :
    c.resyncs idle p = true ↔ idle = true
      ∧ (((c.entry p).state = .joining ∧ (c.entry p).quiet = 16)
            ∧ ((c.entry p).rejoined = true ∨ (c.entry p).stale = true ∨ (c.entry p).outOfStep = true)
          ∨ (c.entry p).state = .ready ∧ ((c.entry p).stale = true ∨ (c.entry p).outOfStep = true)
            ∧ c.beyondIsolated p = false) := by
  simp [ChainManager.resyncs, ChainEntry.proven_iff, ChainEntry.marked, and_assoc]

theorem ChainEntry.enrolled_iff (e : ChainEntry) :
    e.enrolled = true ↔ e.state = .joining ∨ e.state = .ready ∨ e.state = .resyncing := by
  simp [ChainEntry.enrolled, or_assoc]

section

variable {c : ChainManager} {idle : Bool} {p : Nat}

/-- An entry that moves is JOINING or READY. -/
theorem enrolled_of_moves (h : (c.entry p).readies = true ∨ c.resyncs idle p = true) : (c.entry p).enrolled = true := by
  rw [ChainEntry.enrolled_iff]
  rcases h with ready | resync
  · exact .inl ((c.entry p).readies_iff.1 ready).1.1
  · rcases ((resyncs_iff c idle p).1 resync).2 with ⟨⟨joining, -⟩, -⟩ | ⟨ready, -⟩
    · exact .inl joining
    · exact .inr (.inl ready)

theorem movedEntry_of_stays (h1 : ¬(c.entry p).readies = true) (h2 : ¬c.resyncs idle p = true) :
    c.movedEntry idle p = c.entry p := by
  rw [ChainManager.movedEntry, if_neg h1, if_neg h2]

end

theorem movedEntry_stirred (c : ChainManager) (idle : Bool) (p : Nat) : (c.entry p).Stirred (c.movedEntry idle p) := by
  refine ⟨?_, c.movedEntry_enrolled idle p, fun h => ?_, fun out => ?_⟩
  · unfold ChainManager.movedEntry
    split
    · rfl
    · split <;> rfl
  · rw [c.movedEntry_resyncing idle p h, h]
  · have still (h : (c.entry p).readies = true ∨ c.resyncs idle p = true) : False :=
      Bool.false_ne_true (out.symm.trans (enrolled_of_moves h))
    rw [movedEntry_of_stays (fun h => still (.inl h)) fun h => still (.inr h)]
    exact ⟨rfl, rfl⟩

/-! The chain as a whole -/

/-- What marks, moves and a resync transfer that falls due make of the chain: each entry is stirred at most, the chain state,
the bring-up record and the break counters stay, and a transfer that is present was present or goes to a RESYNCING position. -/
structure ChainManager.Stirred (c d : ChainManager) : Prop where
  entry : ∀ p, (c.entry p).Stirred (d.entry p)
  state : d.state = c.state
  bringUp : d.bringUp = c.bringUp
  breakCount : d.breakCount = c.breakCount
  largestShort : d.largestShort = c.largestShort
  resync : ∀ r, d.resync = some r → c.resync = some r ∨ (d.entry r.position).state = .resyncing

namespace ChainManager

theorem Stirred.refl (c : ChainManager) : c.Stirred c := ⟨fun _ => .refl _, rfl, rfl, rfl, rfl, fun _ => .inl⟩

theorem Stirred.trans {c d e : ChainManager} (a : c.Stirred d) (b : d.Stirred e) : c.Stirred e where
  entry p := (a.entry p).trans (b.entry p)
  state := b.state.trans a.state
  bringUp := b.bringUp.trans a.bringUp
  breakCount := b.breakCount.trans a.breakCount
  largestShort := b.largestShort.trans a.largestShort
  resync r h := (b.resync r h).elim (fun h' => (a.resync r h').imp id (b.entry _).resyncing) .inr

theorem Stirred.setEntry {c : ChainManager} {p : Nat} {e : ChainEntry} (h : (c.entry p).Stirred e) : c.Stirred (c.setEntry p e) where
  entry q := by
    rw [entry_setEntry]
    split
    · next hq => rw [hq.1]; exact h
    · exact .refl _
  state := c.setEntry_state p e
  bringUp := c.setEntry_bringUp p e
  breakCount := c.setEntry_breakCount p e
  largestShort := c.setEntry_largestShort p e
  resync r hr := .inl ((c.setEntry_resync p e).symm.trans hr)

/-- R117: a transfer that falls due goes to a RESYNCING position. -/
theorem stirred_ensureResync (c : ChainManager) : c.Stirred c.ensureResync := by
  unfold ensureResync
  split
  · exact .refl c
  · split
    · next p hp =>
      refine ⟨fun _ => .refl _, rfl, rfl, rfl, rfl, fun r hr => .inr ?_⟩
      cases hr
      have found := List.find?_some hp
      exact of_decide_eq_true found
    · exact .refl c

/-- R104: what stirs the chain keeps its law. -/
theorem Stirred.law {c d : ChainManager} (f : c.Stirred d) (h : c.law) : d.law := by
  have kept : { d with resync := c.resync : ChainManager }.law :=
    law_of_same (d := { d with resync := c.resync }) h (fun p => (f.entry p).enrolled) f.state f.bringUp rfl
      fun p => (f.entry p).resyncing
  obtain ⟨whole, sought, off, resync⟩ := kept
  exact ⟨whole, sought, off, fun r hr => (f.resync r hr).elim (resync r) id⟩

end ChainManager

/-- What stirs the chain of the head at most. -/
def Stirs (s t : State) : Prop := s.chain.Stirred t.chain

namespace Stirs

theorem refl (s : State) : Stirs s s := ChainManager.Stirred.refl s.chain

theorem trans {s t u : State} (a : Stirs s t) (b : Stirs t u) : Stirs s u := ChainManager.Stirred.trans a b

theorem foldl {β : Type} {f : State → β → State} (h : ∀ s x, Stirs s (f s x)) (l : List β) (s : State) :
    Stirs s (l.foldl f s) := foldl_frame .refl .trans h l s

theorem of_chain {s t : State} (e : t.chain = s.chain) : Stirs s t := by unfold Stirs; rw [e]; exact .refl _

theorem of_frame {s t : State} (f : StreamFrame s t) : Stirs s t := of_chain f.chain

theorem of_engines {s t : State} (f : EnginesKept s t) : Stirs s t := of_chain f.chain

theorem setEntry {s : State} {p : Nat} {e : ChainEntry} (h : (s.entry p).Stirred e) : Stirs s (s.setEntry p e) :=
  ChainManager.Stirred.setEntry h

theorem setStale (b : Bool) (s : State) (p : Nat) : Stirs s (s.setStale b p) := by
  unfold State.setStale
  split
  · exact refl s
  · exact (setEntry (.stale _ b)).trans (of_frame (recompute_frame _))

theorem setOutOfStep (s : State) (p : Nat) : Stirs s (s.setOutOfStep p) := by
  unfold State.setOutOfStep
  split
  · exact refl s
  · exact (setEntry (.outOfStep _ true)).trans (of_frame (recompute_frame _))

end Stirs

/-! Batches and switches (R61, R62, R79, R80, R115) -/

theorem handOver_stirs (v : Validation) (s : State) : Stirs s (s.handOver v) := by
  rw [handOver_eq]
  exact ((Stirs.of_engines (accepting_engines s v)).trans (.foldl (Stirs.setStale true) _ _)).trans (.of_chain rfl)

theorem formIfDue_stirs (s : State) : Stirs s s.formIfDue := by
  have rejected : Stirs s s.rejecting := .of_engines (rejecting_engines s)
  unfold State.formIfDue
  split
  · rw [formBatch_eq]
    split
    · exact rejected.trans (handOver_stirs _ _)
    · split
      · exact rejected
      · exact rejected.trans (.of_chain (completeSettings_keeps _ _).2.1)
  · exact .refl s

theorem abandon_stirs (w : AbandonReason) (s : State) : Stirs s (s.abandon w) := by
  cases hb : s.switch.batch with
  | none => rw [State.abandon, hb]; exact .refl s
  | some b =>
    have unmarked : Stirs s (State.unmarkStales b.stale { s with streams := s.streams.map Stream.restored }) :=
      (Stirs.of_frame (streams_frame s _)).trans (.foldl (Stirs.setStale false) _ _)
    have undone : Stirs s (s.undoBatch b) :=
      (unmarked.trans (.of_engines (returnDrafts_engines _ _))).trans (.of_chain rfl)
    exact undone.trans (.of_frame (abandon_router hb w).toStreamFrame)

theorem abandonOnLoss_stirs (ps : List Nat) (s : State) : Stirs s (s.abandonOnLoss ps) := by
  unfold State.abandonOnLoss
  split
  · exact abandon_stirs _ s
  · exact .refl s

theorem markUnsettled_stirs (s : State) (x : Transfer) : Stirs s (s.markUnsettled x) := by
  unfold State.markUnsettled
  split
  · split
    · exact .setStale true s _
    · exact .setOutOfStep s _
  · exact .refl s

theorem settleEnd_stirs (s : State) : Stirs s s.settleEnd :=
  (Stirs.foldl markUnsettled_stirs s.switch.transfers s).trans (.of_chain rfl)

theorem readSwitch_stirs (a : Arrival) (s : State) : Stirs s (s.readSwitch a) := by
  cases h : s.switch.phase with
  | idle => rw [State.readSwitch, h]; exact .refl s
  | prepare =>
    rw [readSwitch_prepare h, State.readPrepare]
    split
    · exact .refl s
    · split
      · exact abandon_stirs _ s
      · exact .of_chain rfl
  | countdown => rw [State.readSwitch, h]; exact .of_chain rfl
  | settle =>
    have settling : Stirs s (s.setSwitch (s.switch.readSettle a)) := .of_chain rfl
    rw [readSwitch_settle h]
    split
    · exact settling.trans (settleEnd_stirs _)
    · exact settling

/-! Moves, the resync transfer, and the reports of losses (R108, R111, R116, R117) -/

theorem moveEntry_stirs (s : State) (p : Nat) : Stirs s (s.moveEntry p) := by
  have moved : Stirs s (s.setEntry p (s.chain.movedEntry s.idle p)) := .setEntry (movedEntry_stirred s.chain s.idle p)
  unfold State.moveEntry
  split
  · exact moved.trans (.of_frame (raiseRecompute_frame _ _))
  · split
    · exact moved.trans (.of_frame (recompute_frame _))
    · exact .refl s

theorem moveEntries_stirs (s : State) : Stirs s s.moveEntries := .foldl moveEntry_stirs positions s

theorem ensureResync_stirs (s : State) : Stirs s s.ensureResync := s.chain.stirred_ensureResync

theorem settleWork_stirs (m : Meet) (s : State) : Stirs s (s.settleWork m) := by
  cases m
  · exact ((moveEntries_stirs s).trans (formIfDue_stirs _)).trans (ensureResync_stirs _)
  · exact ((formIfDue_stirs s).trans (moveEntries_stirs _)).trans (ensureResync_stirs _)

theorem reportLosses_stirs (ps : List Nat) (s : State) : Stirs s (s.reportLosses ps) := by
  unfold State.reportLosses
  refine Stirs.trans ?_ (.foldl (fun s p => .of_chain (loseRemote_chain ps s p)) _ _)
  exact ((Stirs.of_frame (recompute_frame s)).trans (abandonOnLoss_stirs ps _)).trans (.of_chain (State.setFetch_chain _ _))

/-- R111: what a loss makes of the chain besides the loss itself. -/
theorem losePositions_stirs {ps : List Nat} (h : ps ≠ []) (s : State) :
    (s.chain.lose ps).Stirred (s.losePositions ps).chain := by
  have raised := (RouterFrame.foldl (fun s p => raise_frame s (.endpointLost p)) ps (s.setChain (s.chain.lose ps))).toStreamFrame
  have lost : Stirs (s.setChain (s.chain.lose ps)) (s.losePositions ps) := by
    rw [State.losePositions, if_neg (by simpa using h)]
    exact (Stirs.of_frame raised).trans (reportLosses_stirs ps _)
  exact lost

end Sys2Proof.Machine


/-! ### The chain table stays whole, operation by operation (R104) -/

namespace Sys2Proof.Machine

/-- The law of the chain table, kept. -/
def ChainKept (s t : State) : Prop := s.chainLaw → t.chainLaw

namespace ChainKept

theorem refl (s : State) : ChainKept s s := id

theorem trans {s t u : State} (a : ChainKept s t) (b : ChainKept t u) : ChainKept s u := b ∘ a

theorem foldl {β : Type} {f : State → β → State} (h : ∀ s x, ChainKept s (f s x)) (l : List β) (s : State) :
    ChainKept s (l.foldl f s) := foldl_frame .refl .trans h l s

theorem of_chain {s t : State} (e : t.chain = s.chain) : ChainKept s t := fun h => by
  unfold State.chainLaw; rw [e]; exact h

theorem of_frame {s t : State} (f : StreamFrame s t) : ChainKept s t := of_chain f.chain

theorem of_engines {s t : State} (f : EnginesKept s t) : ChainKept s t := of_chain f.chain

theorem of_stirs {s t : State} (f : Stirs s t) : ChainKept s t := f.law

/-- A change of the chain that keeps the law, its report to the Router and the recomputation it calls for. -/
theorem report {s t : State} {c : ChainManager} (h : s.chain.law → c.law) (f : StreamFrame (s.setChain c) t) : ChainKept s t :=
  trans (t := s.setChain c) h (of_frame f)

end ChainKept

/-! Changes of the chain that keep the law -/

namespace ChainManager

theorem law_countShort {c : ChainManager} (h : c.law) (reach : Nat) : (c.countShort reach).law := by
  unfold countShort
  split
  · exact h
  · split <;> exact h

/-- R109: reported epochs and quiet counts are no part of the law. -/
theorem law_readTrail {c : ChainManager} (h : c.law) (f : Nat → Option TrailFields) :
    (c.mapEntries fun p => (c.entry p).readTrail (f p)).law := by
  have read (p : Nat) : ((c.mapEntries fun p => (c.entry p).readTrail (f p)).entry p).state = (c.entry p).state := by
    rw [entry_mapEntries]
    split
    · rfl
    · next out => rw [c.entry_out p out]
  obtain ⟨state, bringUp, resync, -⟩ := c.mapEntries_keeps fun p => (c.entry p).readTrail (f p)
  exact law_of_same h (fun p => by unfold ChainEntry.enrolled; rw [read]) state bringUp resync fun p hp => (read p).trans hp

/-- R117, R128 to R131: an entry replaced by one in the same state. -/
theorem law_setEntry {c : ChainManager} (h : c.law) {p : Nat} {e : ChainEntry} (he : e.state = (c.entry p).state) :
    (c.setEntry p e).law := by
  have same (q : Nat) : ((c.setEntry p e).entry q).state = (c.entry q).state := by
    rw [entry_setEntry]
    split
    · next hq => rw [he, hq.1]
    · rfl
  exact law_of_same h (fun q => by unfold ChainEntry.enrolled; rw [same]) (c.setEntry_state p e) (c.setEntry_bringUp p e)
    (c.setEntry_resync p e) fun q hq => (same q).trans hq

/-- R106: bring-up ends with a position enrolled, or with none. -/
theorem law_enterRunning {c : ChainManager} (h : c.law) : c.enterRunning.law := by
  obtain ⟨whole, -, -, resync⟩ := h
  exact ⟨whole, (nomatch ·), (nomatch ·), resync⟩

/-- R106: the position sought is enrolled in bring-up. -/
theorem law_bringUpNext {c : ChainManager} (h : c.law) (hs : c.state = .bringUp) {e : ChainEntry} (he : e.enrolled = true) :
    ((c.setEntry (c.endM + 1) e).bringUpNext (c.endM + 1)).law := by
  unfold bringUpNext
  split
  · next hlt =>
    have bringing : (c.setEntry (c.endM + 1) e).state ≠ .off := by rw [setEntry_state, hs]; nofun
    exact law_enroll h e he (fun _ => rfl) bringing (c.setEntry_resync _ e) fun _ =>
      ⟨_, rfl, rfl, by simp only [Config.maxPosition] at hlt; omega⟩
  · exact law_enroll h e he (fun _ => rfl) (nomatch ·) (c.setEntry_resync _ e) (nomatch ·)

/-- R114: the position beyond the end of the chain is enrolled by a probe. -/
theorem law_probed {c : ChainManager} (h : c.law) (hs : c.state = .running) {e : ChainEntry} (he : e.enrolled = true) :
    (c.setEntry (c.endM + 1) e).endChanged.law := by
  obtain ⟨state, -, resync⟩ := (c.setEntry (c.endM + 1) e).endChanged_keeps
  have running : (c.setEntry (c.endM + 1) e).endChanged.state = .running := state.trans ((c.setEntry_state _ e).trans hs)
  exact law_enroll h e he (endChanged_entry _) (by rw [running]; nofun) (resync.trans (c.setEntry_resync _ e))
    fun hb => by rw [running] at hb; cases hb

/-- R118: the entry of the resync transfer becomes READY, the transfer being done. -/
theorem law_resynced {c : ChainManager} (h : c.law) {r : ResyncTransfer} (hr : c.resync = some r) :
    ({ c.setEntry r.position (c.entry r.position).resynced with resync := none } : ChainManager).law := by
  have resyncing := h.2.2.2 r hr
  have enrolled (p : Nat) : ((c.setEntry r.position (c.entry r.position).resynced).entry p).enrolled = (c.entry p).enrolled := by
    rw [entry_setEntry]
    split
    · next hp => rw [hp.1]; simp [ChainEntry.enrolled, ChainEntry.resynced, resyncing]
    · rfl
  have e : (c.setEntry r.position (c.entry r.position).resynced).endM = c.endM := endM_eq_of enrolled
  refine ⟨fun p a b => (enrolled p).trans (h.1 p a ?_), fun hb => ?_, fun ho => ?_, fun x hx => by cases hx⟩
  · exact Nat.le_trans b (Nat.le_of_eq e)
  · obtain ⟨b, hb1, hb2⟩ := h.2.1 ((c.setEntry_state _ _).symm.trans hb)
    exact ⟨b, (c.setEntry_bringUp _ _).trans hb1, hb2.trans (congrArg (· + 1) e.symm)⟩
  · exact e.trans (h.2.2.1 ((c.setEntry_state _ _).symm.trans ho))

/-- R117, R118: the transfer that is present starts again, or goes on, at the same position. -/
theorem law_retransfer {c : ChainManager} (h : c.law) {r x : ResyncTransfer} (hr : c.resync = some r)
    (hx : x.position = r.position) : ({ c with resync := some x } : ChainManager).law := by
  obtain ⟨whole, sought, off, resync⟩ := h
  refine ⟨whole, sought, off, fun y hy => ?_⟩
  cases hy
  exact (congrArg (fun p => (c.entry p).state) hx).trans (resync r hr)

end ChainManager

/-! Losses and the reading of a trail (R109 to R111) -/

theorem losePositions_chainLaw (r : Nat) (s : State) : ChainKept s (s.losePositions (s.chain.enrolledAbove r)) := fun h => by
  by_cases none : s.chain.enrolledAbove r = []
  · rw [none]; exact h
  · exact (losePositions_stirs none s).law (ChainManager.law_lose h r)

theorem breakChain_chainLaw (s : State) : ChainKept s s.breakChain := fun h =>
  losePositions_chainLaw s.chain.largestShort (s.setChain s.chain.clearBreak) h

theorem applyBreak_chainLaw (a : Arrival) (m : Meet) (s : State) : ChainKept s (s.applyBreak a m) := by
  have counted : ChainKept s (s.setChain (s.chain.countShort a.trail.reach)) := fun h => ChainManager.law_countShort h _
  unfold State.applyBreak
  dsimp only
  split
  · exact (counted.trans (breakChain_chainLaw _)).trans (.of_stirs (settleWork_stirs m _))
  · exact counted

theorem readEntries_chainLaw (a : Arrival) (s : State) : ChainKept s (s.readEntries a) := fun h =>
  (moveEntries_stirs _).law (ChainManager.law_readTrail h _)

/-! The answers of the chain client (R106, R112, R114, R118) -/

theorem answerSeek_chainLaw (p : Nat) (ans : Option Answer) (s : State) : ChainKept s (s.answerSeek p ans) := by
  unfold State.answerSeek
  split
  · next b bringing hb =>
    split
    · next sought =>
      split
      · next i _ =>
        refine .report (fun h => ?_) (raiseRecompute_frame _ _)
        obtain ⟨b', hb', position⟩ := h.2.1 bringing
        cases hb.symm.trans hb'
        rw [← sought.2, position]
        exact ChainManager.law_bringUpNext h bringing rfl
      · split
        · exact ChainManager.law_enterRunning
        · exact .refl s
    · exact .refl s
  · exact .refl s

theorem enrollByProbe_chainLaw {s : State} (hs : s.chain.state = .running) (i : Identity) :
    ChainKept s (s.enrollByProbe (s.chain.endM + 1) i) := by
  have marked (q : Nat) (t : State) : StreamFrame t (t.markReplaced q) := streams_frame t _
  have joined {e : ChainEntry} (he : e.enrolled = true) (h : s.chain.law) :
    (s.chain.setEntry (s.chain.endM + 1) e).endChanged.law := ChainManager.law_probed h hs he
  unfold State.enrollByProbe
  split
  · split
    · exact .report (joined rfl) (raiseRecompute_frame _ _)
    · exact .report (joined rfl) ((marked _ _).trans ((raise_frame _ _).toStreamFrame.trans (raiseRecompute_frame _ _)))
  · exact .report (joined rfl) (raiseRecompute_frame _ _)

theorem answerProbe_chainLaw (q : Nat) (ans : Option Answer) (s : State) : ChainKept s (s.answerProbe q ans) := by
  unfold State.answerProbe
  split
  · next taken =>
    split
    · rw [taken.2]; exact enrollByProbe_chainLaw taken.1 _
    · exact .refl s
  · exact .refl s

theorem answerExtend_chainLaw (p : Nat) (ans : Option Answer) (s : State) : ChainKept s (s.answerExtend p ans) := by
  unfold State.answerExtend
  split <;> exact id

theorem answerResync_chainLaw (p : Nat) (ans : Option Answer) (s : State) : ChainKept s (s.answerResync p ans) := by
  unfold State.answerResync
  split
  · next r hr =>
    split
    · next hp =>
      subst hp
      split
      · exact .report (fun h => ChainManager.law_resynced h hr) (raiseRecompute_frame _ _)
      · unfold State.resyncFailed
        split
        · exact fun h => ChainManager.law_retransfer h hr rfl
        · exact losePositions_chainLaw _ s
    · exact .refl s
  · exact .refl s

theorem answerChain_chainLaw (a : Arrival) (s : State) : ChainKept s (s.answerChain a) := by
  unfold State.answerChain
  split
  · exact answerSeek_chainLaw _ _ s
  · exact answerExtend_chainLaw _ _ s
  · exact answerResync_chainLaw _ _ s
  · exact answerProbe_chainLaw _ _ s
  all_goals exact .refl s

theorem readChain_chainLaw (a : Arrival) (m : Meet) (s : State) : ChainKept s (s.readChain a m) := fun h =>
  answerChain_chainLaw a _ (readEntries_chainLaw a _ (applyBreak_chainLaw a m (s.setChain (s.chain.seeTrail a.trail)) h))

/-! The hops (R124 to R132) -/

/-- R128 to R131: a trail leaves the state of an entry. -/
theorem afterTrail_state (t : Trail) (m p : Nat) (e : ChainEntry) : (e.afterTrail t m p).state = e.state := by
  have scored : (e.scored t m p).state = e.state := by
    unfold ChainEntry.scored ChainEntry.charge ChainEntry.clean
    repeat' split
    all_goals rfl
  have graded (e : ChainEntry) : e.graded.state = e.state := by
    unfold ChainEntry.graded
    repeat' split
    all_goals rfl
  unfold ChainEntry.afterTrail
  split
  · rfl
  · exact (graded _).trans scored

theorem readHops_chainLaw (a : Arrival) (s : State) : ChainKept s (s.readHops a) := by
  have graded (s' : State) (p : Nat) : ChainKept s' (s'.gradeHop a.trail s.chain.endM p) := by
    unfold State.gradeHop
    split
    · exact fun h => ChainManager.law_setEntry h (afterTrail_state _ _ _ _)
    · exact .refl s'
  exact (ChainKept.foldl graded positions s).trans (.of_frame (reportHops_frame _ _))

theorem recoverHop_chainLaw (p : Nat) (s : State) : ChainKept s (s.recoverHop p) := by
  have recovered : ChainKept s (s.setEntry p (s.entry p).recovered) := fun h => ChainManager.law_setEntry h rfl
  exact recovered.trans (.of_frame (reportHops_frame _ _))

/-! The trail arrival -/

theorem runReader_chainLaw (a : Arrival) (m : Meet) (s : State) (r : Reader) : ChainKept s (s.runReader a m r) := by
  have read : ∀ t, ChainKept s t → ChainKept s (t.settleWork m) := fun t h => h.trans (.of_stirs (settleWork_stirs m t))
  cases r with
  | hop => exact read _ (readHops_chainLaw a s)
  | chain => exact read _ (readChain_chainLaw a m s)
  | switch => exact read _ (.of_stirs (readSwitch_stirs a s))
  | fetch => exact read _ (.of_chain (readFetch_chain a s))
  | remote => exact read _ (.of_chain (readRemote_chain a s))

theorem arrive_chainLaw (up : Option UpPass) (o : TrailOrder) (s : State) : ChainKept s (s.arrive up o) := by
  unfold State.arrive
  split
  · exact (ChainKept.of_chain (State.setCycle_chain s _)).trans (.foldl (runReader_chainLaw _ _) _ _)
  · exact .refl s

theorem openCycle_chainLaw (s : State) : ChainKept s s.openCycle := by
  unfold State.openCycle
  split
  · exact .refl s
  · exact (arrive_chainLaw none TrailOrder.default s).trans (.of_chain rfl)

/-! The acts of a cycle start -/

theorem switchCycle_chain (s : State) : s.switchCycle.chain = s.chain := by
  unfold State.switchCycle
  split
  · split
    · rw [(switchResults_frame _ _ _).chain, switchChanges_eq]
    · rfl
  · rfl

theorem expireLease_chainLaw (p : Port) (s : State) : ChainKept s (s.expireLease p) :=
  (ChainKept.of_engines (endSession_engines p _ s)).trans (.of_stirs (formIfDue_stirs _))

theorem tickLease_chainLaw (p : Port) (s : State) : ChainKept s (s.tickLease p) := by
  rcases tickLease_cases p s with ⟨e, -⟩ | ⟨n, -, -, -, e⟩ | ⟨e, -⟩ <;> rw [e]
  · exact expireLease_chainLaw p s
  · exact .of_chain rfl
  · exact .refl s

theorem tickProbe_chainLaw (s : State) : ChainKept s s.tickProbe := by
  unfold State.tickProbe
  split
  · exact id
  · exact id
  · split <;> exact id

/-- R117: counting an attempt leaves the entry in its state. -/
theorem law_countAttempt {c : ChainManager} (h : c.law) (r : ResyncTransfer) : (c.countAttempt r).law := by
  unfold ChainManager.countAttempt
  split
  · exact ChainManager.law_setEntry h rfl
  · exact h

theorem countAttempt_resync (c : ChainManager) (r : ResyncTransfer) : (c.countAttempt r).resync = c.resync := by
  unfold ChainManager.countAttempt
  split
  · exact c.setEntry_resync _ _
  · rfl

theorem sendResync_chainLaw {s : State} {r : ResyncTransfer} (hr : s.chain.resync = some r) : ChainKept s (s.sendResync r).1 := by
  unfold State.sendResync
  dsimp only
  split
  · exact fun h => ChainManager.law_retransfer (law_countAttempt h r) ((countAttempt_resync _ r).trans hr) rfl
  · exact fun h => law_countAttempt h r

theorem sendChain_chainLaw (i : ChainItem) (s : State) : ChainKept s (s.sendChain i).1 := by
  unfold State.sendChain
  cases i <;> dsimp only
  case bringUpExtend | bringUpSeek | extend => split <;> exact .refl s
  case resyncLine | resyncSeal =>
    split
    · next hr => exact sendResync_chainLaw hr
    · exact .refl s
  case probe => exact id

theorem fill_chainLaw (c : Option Client) (s : State) : ChainKept s (s.fill c).1 := by
  unfold State.fill
  split
  · exact .refl s
  · exact .of_chain rfl
  · exact sendChain_chainLaw _ s
  · unfold State.sendFetch; split <;> exact .of_chain rfl
  · unfold State.sendRemote; split <;> exact .of_chain rfl

theorem tick_position (b : BringUp) : b.tick.position = b.position := by
  unfold BringUp.tick
  split <;> rfl

/-- R105: counting the cycle starts of a wait leaves the position sought. -/
theorem tickBringUp_chainLaw (s : State) : ChainKept s s.tickBringUp := by
  unfold State.tickBringUp
  split
  · rintro ⟨whole, sought, off, resync⟩
    refine ⟨whole, fun hs => ?_, off, resync⟩
    obtain ⟨b, hb, position⟩ := sought hs
    exact ⟨b.tick, congrArg (Option.map BringUp.tick) hb, (tick_position b).trans position⟩
  · exact .refl s
  · exact .refl s

theorem grantSlot_chainLaw (s : State) : ChainKept s s.grantSlot := by
  have put (c : Option Client) (m : ControlMsg) (t : State) : ChainKept t (t.putMessage c m) := .of_chain rfl
  exact (((ChainKept.of_chain (headChecks_chain s)).trans (fill_chainLaw _ _)).trans (put _ _ _)).trans (tickBringUp_chainLaw _)

/-- R104, R105: with no position enrolled bring-up begins at position 1. -/
theorem firstBringUp_chainLaw (s : State) : ChainKept s s.firstBringUp := by
  unfold State.firstBringUp
  split
  · next hoff =>
    rintro ⟨whole, -, off, resync⟩
    exact ⟨whole, fun _ => ⟨_, rfl, congrArg (· + 1) (off hoff).symm⟩, (nomatch ·), resync⟩
  · exact .refl s
  · exact .refl s

theorem runAct_chainLaw (m : Tab Sample 64) (s : State) (a : CycleAct) : ChainKept s (s.runAct m a) := by
  cases a with
  | lease p => exact tickLease_chainLaw p s
  | switch => exact .of_chain (switchCycle_chain s)
  | probe => exact tickProbe_chainLaw s
  | slot => exact grantSlot_chainLaw s
  | lead => exact (firstBringUp_chainLaw s).trans (.of_chain rfl)

theorem nextCycle_chainLaw (m : Tab Sample 64) (o : List CycleAct) (s : State) : ChainKept s (s.nextCycle m o) := by
  unfold State.nextCycle State.makeActs
  exact ((openCycle_chainLaw s).trans (.foldl (runAct_chainLaw m) _ _)).trans (.of_chain rfl)

theorem actAlone_chainLaw {due : State → Bool} {a : CycleAct} {act : State → State} (h : ∀ s, ChainKept s (act s)) (s : State) :
    ChainKept s (s.actAlone due a act) := by
  obtain ⟨-, -, e⟩ | ⟨-, e⟩ := actAlone_cases due a act s <;> rw [e]
  · exact ((openCycle_chainLaw s).trans (h _)).trans (.of_chain rfl)
  · exact .refl s

theorem underGuard_chainLaw {c : State → Bool} {f : State → State} (h : ∀ s, ChainKept s (f s)) (s : State) :
    ChainKept s (s.underGuard c f) := by
  unfold State.underGuard
  split
  · exact h s
  · exact .refl s

theorem leaveJoining_stirs (p : Nat) (s : State) : Stirs s (s.leaveJoining p) := by
  unfold State.leaveJoining
  split
  · exact (moveEntry_stirs s p).trans (ensureResync_stirs _)
  · exact moveEntry_stirs s p

end Sys2Proof.Machine


/-! ### Requests and commands: the chain table stays whole (R104) -/

namespace Sys2Proof.Machine

/-- An owner of requests that leaves the chain as it is. -/
def LeavesChain {α : Type} (owner : α → State → State × Response) : Prop := ∀ a s, (owner a s).1.chain = s.chain

theorem takeAttach_chain (p : Port) : LeavesChain (State.takeAttach p) := fun _ _ => by
  unfold State.takeAttach; split <;> rfl

theorem takeDetach_chain (p : Port) : LeavesChain (State.takeDetach p) := fun _ s => (endSession_engines p .detach s).chain

theorem takeDraftOpen_chain (p : Port) : LeavesChain (State.takeDraftOpen p) := fun _ _ => by
  unfold State.takeDraftOpen; repeat' split
  all_goals rfl

theorem takeDraftClose_chain (p : Port) : LeavesChain (State.takeDraftClose p) := fun _ _ => by
  unfold State.takeDraftClose; repeat' split
  all_goals rfl

theorem takeDraftResize_chain (p : Port) : LeavesChain (State.takeDraftResize p) := fun _ _ => by
  unfold State.takeDraftResize; repeat' split
  all_goals rfl

theorem takeDraftSet_chain (p : Port) : LeavesChain (State.takeDraftSet p) := fun _ _ => by
  unfold State.takeDraftSet; repeat' split
  all_goals rfl

theorem takeDraftDrop_chain (p : Port) : LeavesChain (State.takeDraftDrop p) := fun _ s => by
  unfold State.takeDraftDrop
  split
  · rfl
  · split
    · rfl
    · split
      · rfl
      · exact (freeOpened_frame s _).chain

theorem takeDraftClear_chain (p : Port) : LeavesChain (State.takeDraftClear p) := fun _ s => by
  unfold State.takeDraftClear
  split
  · rfl
  · rfl
  · rfl
  · exact (EnginesKept.discardDraft s p).chain

theorem takeDraftView_chain (p : Port) : LeavesChain (State.takeDraftView p) := fun _ _ => by
  unfold State.takeDraftView; split <;> rfl

theorem takeCommit_chain (p : Port) : LeavesChain (State.takeCommit p) := fun _ _ => by
  unfold State.takeCommit; repeat' split
  all_goals rfl

theorem takeWithdraw_chain (p : Port) : LeavesChain (State.takeWithdraw p) := fun _ _ => by
  unfold State.takeWithdraw; split <;> rfl

theorem takeStreamInfo_chain : LeavesChain State.takeStreamInfo := fun _ _ => by
  unfold State.takeStreamInfo; split <;> rfl

theorem takeListStreams_chain : LeavesChain State.takeListStreams := fun _ _ => by
  unfold State.takeListStreams; split <;> rfl

theorem takeChainInfo_chain : LeavesChain State.takeChainInfo := fun _ _ => by
  unfold State.takeChainInfo; repeat' split
  all_goals rfl

theorem takeRemote_chain (p : Port) : LeavesChain (State.takeRemote p) := fun _ _ => by
  unfold State.takeRemote; repeat' split
  all_goals rfl

theorem takeSubscribe_chain (p : Port) : LeavesChain (State.takeSubscribe p) := fun _ _ => by
  unfold State.takeSubscribe; split <;> rfl

theorem takeReadQueue_chain (p : Port) : LeavesChain (State.takeReadQueue p) := fun _ _ => by
  unfold State.takeReadQueue; split <;> rfl

/-- R103, R104: bring-up begins anew with no position enrolled and position 1 sought. -/
theorem chainRestarted_law : ChainManager.restarted.law := by
  have e : ChainManager.restarted.endM = 0 := chainReset_endM
  exact ⟨fun p a b => by omega, fun _ => ⟨_, rfl, by rw [e]; rfl⟩, fun h => (nomatch h), fun _ h => (nomatch h)⟩

theorem takeChainRestart_chainLaw (p : Port) (a : Unit) (s : State) : ChainKept s (s.takeChainRestart p a).1 := by
  unfold State.takeChainRestart
  split
  · exact .refl s
  · split
    · exact .refl s
    · intro _
      unfold State.chainLaw
      rw [show (s.restartChain p).chain = ChainManager.restarted from (restartChain_router p s).chain]
      exact chainRestarted_law

theorem requestThen_chainLaw {α : Type} {open? : Bool} {p : Port} {b : Sized α} {owner : α → State → State × Response}
    {after : State → State} (h : ∀ a s, ChainKept s (owner a s).1) (ha : ∀ s, ChainKept s (after s)) (s : State) :
    ChainKept s (s.requestThen open? p b owner after) :=
  requestThen_rel .refl .trans (fun _ _ _ => .of_chain rfl) h ha s

theorem request_chainLaw {α : Type} {open? : Bool} {p : Port} {b : Sized α} {owner : α → State → State × Response}
    (h : LeavesChain owner) (s : State) : ChainKept s (s.request open? p b owner) :=
  requestThen_chainLaw (fun a s => .of_chain (h a s)) .refl s

theorem refuse_chain (p : Port) (st : Status) (s : State) : (s.refuse p st).chain = s.chain := by
  unfold State.refuse
  split <;> rfl

/-- R104 at a transaction of a host port. -/
theorem exec_chainLaw_of_hostPort {c : Instr} {p : Port} (hc : hostPort c = some p) {s t : State} (e : exec c s = .next t) :
    ChainKept s t := by
  have released {f : State → State} (h : ∀ s, ChainKept s (f s)) (e : s.whenReleased f = .next t) : ChainKept s t :=
    whenReleased_keeps .refl h e
  have formed (s : State) : ChainKept s s.formIfDue := .of_stirs (formIfDue_stirs s)
  cases c
  case frameError q _ => exact released (fun s => .of_chain (refuse_chain q _ s)) e
  case badRequest q _ _ => exact released (fun s => .of_chain (refuse_chain q _ s)) e
  case responseRead q n => exact released (fun s => .of_chain (State.setPort_chain s q ((s.port q).readOut n))) e
  case attach q _ => exact released (request_chainLaw (takeAttach_chain q)) e
  case detach q _ => exact released (requestThen_chainLaw (fun a s => .of_chain (takeDetach_chain q a s)) formed) e
  case portStatus q _ => exact released (request_chainLaw fun _ _ => rfl) e
  case draftOpen q _ => exact released (request_chainLaw (takeDraftOpen_chain q)) e
  case draftClose q _ => exact released (request_chainLaw (takeDraftClose_chain q)) e
  case draftResize q _ => exact released (request_chainLaw (takeDraftResize_chain q)) e
  case draftSet q _ => exact released (request_chainLaw (takeDraftSet_chain q)) e
  case draftDrop q _ => exact released (request_chainLaw (takeDraftDrop_chain q)) e
  case draftClear q _ => exact released (request_chainLaw (takeDraftClear_chain q)) e
  case draftView q _ => exact released (request_chainLaw (takeDraftView_chain q)) e
  case commit q _ => exact released (requestThen_chainLaw (fun a s => .of_chain (takeCommit_chain q a s)) formed) e
  case withdraw q _ => exact released (request_chainLaw (takeWithdraw_chain q)) e
  case streamInfo q _ => exact released (request_chainLaw takeStreamInfo_chain) e
  case listStreams q _ => exact released (request_chainLaw takeListStreams_chain) e
  case planInfo q _ => exact released (request_chainLaw fun _ _ => rfl) e
  case chainInfo q _ => exact released (request_chainLaw takeChainInfo_chain) e
  case chainRestart q _ => exact released (requestThen_chainLaw (takeChainRestart_chainLaw q) .refl) e
  case remoteRead q _ => exact released (request_chainLaw fun _ => takeRemote_chain q _) e
  case remoteWrite q _ => exact released (request_chainLaw fun _ => takeRemote_chain q _) e
  case subscribe q _ => exact released (request_chainLaw (takeSubscribe_chain q)) e
  case readQueue q _ => exact released (request_chainLaw (takeReadQueue_chain q)) e
  all_goals cases hc

/-- R104 at every command. -/
theorem exec_chainLaw (c : Instr) {s t : State} (e : exec c s = .next t) : ChainKept s t := by
  have released {f : State → State} (h : ∀ s, ChainKept s (f s)) (e : s.whenReleased f = .next t) : ChainKept s t :=
    whenReleased_keeps .refl h e
  have settled (m : Meet) {f : State → State} (h : ∀ s, ChainKept s (f s)) (s : State) : ChainKept s ((f s).settleWork m) :=
    (h s).trans (.of_stirs (settleWork_stirs m _))
  cases c
  case deviceReset => cases e; exact fun _ => reset_chainLaw
  case resetRelease => cases e; exact .of_chain rfl
  case cycleStart m o => exact released (nextCycle_chainLaw m o) e
  case trailArrival up o => exact released (arrive_chainLaw (some up) o) e
  case receiveWindowClose o => exact released (arrive_chainLaw none o) e
  case leaseExpiry p => exact released (actAlone_chainLaw (expireLease_chainLaw p)) e
  case probeDue => exact released (actAlone_chainLaw tickProbe_chainLaw) e
  case bringupSeek => exact released (actAlone_chainLaw grantSlot_chainLaw) e
  case switchCycle => exact released (actAlone_chainLaw fun s => .of_chain (switchCycle_chain s)) e
  case batchFormation => exact released (fun s => .of_stirs (formIfDue_stirs s)) e
  case isolationRecovery p => exact released (underGuard_chainLaw (settled _ (recoverHop_chainLaw p))) e
  case breakDetected m => exact released (underGuard_chainLaw (settled m breakChain_chainLaw)) e
  case quietCountComplete p => exact released (underGuard_chainLaw fun s => .of_stirs (leaveJoining_stirs p s)) e
  case resyncEntry =>
    exact released (underGuard_chainLaw fun s => .of_stirs ((moveEntries_stirs s).trans (ensureResync_stirs _))) e
  case prepareTimeout m => exact released (underGuard_chainLaw (settled m fun s => .of_stirs (abandon_stirs _ s))) e
  case settleEnd m => exact released (underGuard_chainLaw (settled m fun s => .of_stirs (settleEnd_stirs s))) e
  all_goals exact exec_chainLaw_of_hostPort rfl e

/-- Settles O58: an operation stirs the chain at most (`ChainManager.Stirred.law`), enrols the position just beyond its end,
loses every position above one, or begins it anew. -/
theorem chainTableKeptWhole : Obligations.ChainTableKeptWhole := by
  unfold Obligations.ChainTableKeptWhole
  intro s t hs e
  unfold step at e
  split at e
  · cases e; exact hs
  · exact exec_chainLaw _ e hs

end Sys2Proof.Machine


/-! ### BREAK_DETECTED (R110, R111, R125) -/

namespace Sys2Proof.Machine

namespace ChainManager

variable (c : ChainManager)

/-- R111: the entries after a loss, whatever the loss makes of the bring-up record and of what is pending. -/
theorem entry_lose (ps : List Nat) (q : Nat) :
    (c.lose ps).entry q = if q ∈ ps ∧ 1 ≤ q ∧ q ≤ 15 then (c.entry q).lose else c.entry q := by
  have lost : (((ps.foldl loseEntry c).dropResync ps).restBreak).entry q = (ps.foldl loseEntry c).entry q :=
    (restBreak_entry _ q).trans (entry_dropResync _ ps q)
  rw [← entry_loseEntries, ← lost]
  unfold lose
  dsimp only
  split
  · exact enterRunning_entry _ q
  · exact endChanged_entry _ q
  · rfl

/-- R110: the break counters are at 0. -/
def AtRest : Prop := c.breakCount = 0 ∧ c.largestShort = 0

theorem atRest_clearBreak : c.clearBreak.AtRest := ⟨rfl, rfl⟩

variable {c}

/-- R110: a loss leaves the break counters at 0. -/
theorem AtRest.lose (h : c.AtRest) (ps : List Nat) : (c.lose ps).AtRest := by
  have entries : (ps.foldl loseEntry c).AtRest :=
    List.foldlRecOn (motive := AtRest) ps _ h fun d hd p _ =>
      ⟨(d.setEntry_breakCount p _).trans hd.1, (d.setEntry_largestShort p _).trans hd.2⟩
  have dropped : ((ps.foldl loseEntry c).dropResync ps).AtRest := by
    unfold dropResync
    split
    · split <;> exact entries
    · exact entries
  have rested : ((ps.foldl loseEntry c).dropResync ps).restBreak.AtRest := by
    unfold restBreak
    split
    · exact atRest_clearBreak _
    · exact dropped
  unfold ChainManager.lose endChanged
  dsimp only
  split
  · exact rested
  · split <;> exact rested
  · exact rested

theorem Stirred.atRest {d : ChainManager} (f : c.Stirred d) (h : c.AtRest) : d.AtRest :=
  ⟨f.breakCount.trans h.1, f.largestShort.trans h.2⟩

end ChainManager

/-- R111, R125: an entry after a detected break. -/
def ChainManager.brokenEntry (c : ChainManager) (q : Nat) : ChainEntry :=
  if c.largestShort < q ∧ (c.entry q).enrolled = true then (c.entry q).lose else c.entry q

/-- R110, R111: a detected break loses the enrolled positions above the largest short reach, puts the break counters at rest,
and stirs the chain at most with its reports. -/
theorem breakChain_breaks (s : State) :
    ∃ c : ChainManager, c.AtRest ∧ (∀ q, c.entry q = s.chain.brokenEntry q) ∧ c.Stirred s.breakChain.chain := by
  have above (q : Nat) : q ∈ s.chain.enrolledAbove s.chain.largestShort
      ↔ s.chain.largestShort < q ∧ (s.chain.entry q).enrolled = true := s.chain.enrolledAbove_mem _ q
  unfold State.breakChain
  by_cases none : s.chain.enrolledAbove s.chain.largestShort = []
  · refine ⟨s.chain.clearBreak, s.chain.atRest_clearBreak, fun q => ?_, ?_⟩
    · rw [ChainManager.brokenEntry, if_neg fun h => by simpa [none] using (above q).2 h]
      rfl
    · rw [none]
      exact .refl _
  · refine ⟨_, s.chain.atRest_clearBreak.lose _, fun q => ?_, losePositions_stirs none (s.setChain s.chain.clearBreak)⟩
    refine (ChainManager.entry_lose _ _ q).trans (if_congr ?_ rfl rfl)
    rw [above]
    exact ⟨fun h => h.1, fun h => ⟨h, s.chain.enrolled_range h.2⟩⟩

/-- A row under its condition, on a head that is not held in reset. -/
theorem whenReleased_underGuard {s : State} (hs : s.resetHigh = true) (c : State → Bool) (f : State → State) :
    s.whenReleased (State.underGuard c f) = .next (if c s then f s else s) := congrArg Host.Outcome.next (if_pos hs)

theorem exec_breakDetected {s : State} (hs : s.resetHigh = true) (h : 3 ≤ s.chain.breakCount) (m : Meet) :
    exec (.breakDetected m) s = .next (s.breakChain.settleWork m) := by
  have broken : s.chain.broken = true := decide_eq_true h
  exact (whenReleased_underGuard hs _ _).trans (by rw [if_pos broken])

/-- Settles O49: the entries the break loses (`breakChain_breaks`), which what follows stirs at most: it leaves the state and
the attempts of an entry that is not enrolled, and an enrolled one enrolled. -/
theorem breakLosesPositions : Obligations.BreakLosesPositions := by
  unfold Obligations.BreakLosesPositions
  intro s m hs hbroken
  obtain ⟨c, atRest, entries, reported⟩ := breakChain_breaks s
  have stirred : c.Stirred (s.breakChain.settleWork m).chain := reported.trans (settleWork_stirs m _)
  have f := (breakChain_frame s).trans (settleWork_frame m _).toTrailFrame
  obtain ⟨breakCount, largestShort⟩ := stirred.atRest atRest
  refine ⟨_, exec_breakDetected hs hbroken m, breakCount, largestShort, fun q above enrolled => ?_, fun q below => ?_,
    f.ports, f.cycle, f.arbiter⟩
  · have lost : (s.entry q).lose.Stirred ((s.breakChain.settleWork m).entry q) := by
      have e := entries q
      rw [ChainManager.brokenEntry, if_pos ⟨above, enrolled⟩] at e
      exact e ▸ stirred.entry q
    obtain ⟨state, attempts⟩ := lost.outside rfl
    rw [lost.rest]
    exact ⟨state, rfl, attempts, rfl, rfl, rfl, rfl, rfl⟩
  · refine (stirred.entry q).enrolled.trans ?_
    rw [entries, ChainManager.brokenEntry, if_neg fun h => absurd h.1 (Nat.not_lt.2 below)]
    rfl

end Sys2Proof.Machine


/-! ### Leaving JOINING and entering RESYNCING (R108, R116, R117) -/

namespace Sys2Proof.Machine

/-! The entry that moves -/

section

variable {c : ChainManager} {idle : Bool} {p : Nat}

theorem movedEntry_of_readies (h : (c.entry p).readies = true) :
    c.movedEntry idle p = { c.entry p with state := .ready } := if_pos h

theorem movedEntry_of_resyncs (h : c.resyncs idle p = true) :
    c.movedEntry idle p = { c.entry p with state := .resyncing, attempts := 0 } := by
  have notReady : ¬(c.entry p).readies = true := fun ready => by
    obtain ⟨⟨joining, -⟩, rejoined, stale, outOfStep⟩ := (c.entry p).readies_iff.1 ready
    have marked := ((resyncs_iff c idle p).1 h).2
    simp [joining, rejoined, stale, outOfStep] at marked
  rw [ChainManager.movedEntry, if_neg notReady, if_pos h]

/-- R108, R116: only JOINING entries at quiet count 16 and marked READY ones beyond no ISOLATED hop move. -/
theorem movedEntry_of_still (h1 : (c.entry p).state = .joining → (c.entry p).quiet ≠ 16)
    (h2 : (c.entry p).state = .ready →
      ((c.entry p).stale = false ∧ (c.entry p).outOfStep = false) ∨ c.beyondIsolated p = true) :
    c.movedEntry idle p = c.entry p := by
  refine movedEntry_of_stays (fun ready => ?_) fun resync => ?_
  · obtain ⟨joining, quiet⟩ := ((c.entry p).readies_iff.1 ready).1
    exact h1 joining quiet
  · rcases ((resyncs_iff c idle p).1 resync).2 with ⟨⟨joining, quiet⟩, -⟩ | ⟨ready, marked, reachable⟩
    · exact h1 joining quiet
    · rcases h2 ready with ⟨stale, outOfStep⟩ | beyond
      · simp [stale, outOfStep] at marked
      · simp [reachable] at beyond

end

theorem beyondIsolated_congr {c d : ChainManager} (h : ∀ p, (d.entry p).hopState = (c.entry p).hopState) (q : Nat) :
    d.beyondIsolated q = c.beyondIsolated q := by
  simp only [ChainManager.beyondIsolated, h]

/-- Whether and how an entry moves depends on it and on the ISOLATED hops. -/
theorem movedEntry_congr {c d : ChainManager} (h : ∀ p, (d.entry p).hopState = (c.entry p).hopState) {q : Nat}
    (e : d.entry q = c.entry q) (idle : Bool) : d.movedEntry idle q = c.movedEntry idle q := by
  unfold ChainManager.movedEntry ChainManager.resyncs
  rw [beyondIsolated_congr h, e]

theorem hopState_moveEntry (s : State) (p q : Nat) : ((s.moveEntry p).entry q).hopState = (s.entry q).hopState := by
  have stirred : (s.entry q).Stirred ((s.moveEntry p).entry q) := (moveEntry_stirs s p).entry q
  rw [stirred.rest]

/-- R108, R116: a move changes the entry of its own position only. -/
theorem entry_moveEntry (s : State) (p q : Nat) :
    (s.moveEntry p).entry q = if q = p then s.chain.movedEntry s.idle p else s.entry q := by
  have moved (h : (s.entry p).enrolled = true) :
      (s.setEntry p (s.chain.movedEntry s.idle p)).entry q = if q = p then s.chain.movedEntry s.idle p else s.entry q := by
    simp only [State.entry_setEntry, s.chain.enrolled_range h, and_true]
  unfold State.moveEntry
  split
  · next ready =>
    rw [State.entry, (raiseRecompute_frame _ _).chain]
    exact moved (enrolled_of_moves (idle := s.idle) (.inl ready))
  · next notReady =>
    split
    · next resync =>
      rw [State.entry, (recompute_frame _).chain]
      exact moved (enrolled_of_moves (.inr resync))
    · next notResync =>
      rw [movedEntry_of_stays notReady notResync]
      split
      · next hq => rw [hq]; rfl
      · rfl

theorem entry_moveList {l : List Nat} (hl : l.Nodup) (s : State) (q : Nat) :
    (l.foldl State.moveEntry s).entry q = if q ∈ l then s.chain.movedEntry s.idle q else s.entry q := by
  induction l generalizing s with
  | nil => simp
  | cons p l ih =>
    obtain ⟨fresh, hl'⟩ := List.nodup_cons.1 hl
    have idle : (s.moveEntry p).idle = s.idle := by rw [State.idle, (moveEntry_frame s p).switch, State.idle]
    rw [List.foldl_cons, ih hl', idle, entry_moveEntry]
    by_cases hq : q = p
    · subst hq
      simp [fresh]
    · have same : (s.moveEntry p).entry q = s.entry q := by rw [entry_moveEntry, if_neg hq]
      rw [movedEntry_congr (hopState_moveEntry s p) same]
      simp [hq]

/-- R108, R116: every entry moves as the table stood. -/
theorem entry_moveEntries (s : State) (q : Nat) : s.moveEntries.entry q = s.chain.movedEntry s.idle q := by
  rw [State.moveEntries, entry_moveList (l := positions) List.nodup_range']
  split
  · rfl
  · next hq =>
    rw [ChainManager.mem_positions] at hq
    refine (movedEntry_of_still (c := s.chain) (fun h => ?_) fun h => ?_).symm <;>
      rw [s.chain.entry_out q hq] at h <;> cases h

/-! The resync transfer (R117) -/

theorem entry_ensureResync (s : State) (q : Nat) : s.ensureResync.entry q = s.entry q := by
  unfold State.ensureResync ChainManager.ensureResync
  split
  · rfl
  · split <;> rfl

/-- R117: with a position RESYNCING a transfer is present. -/
theorem ensureResync_isSome {c : ChainManager} {q : Nat} (h : (c.entry q).state = .resyncing) :
    c.ensureResync.resync.isSome = true := by
  have enrolled : (c.entry q).enrolled = true := (c.entry q).enrolled_iff.2 (.inr (.inr h))
  have found : (positions.find? fun p => (c.entry p).state == .resyncing).isSome = true :=
    List.find?_isSome.2 ⟨q, (ChainManager.mem_positions q).2 (c.enrolled_range enrolled), by simp [h]⟩
  obtain ⟨p, hp⟩ := Option.isSome_iff_exists.1 found
  unfold ChainManager.ensureResync
  split
  · next hr => rw [hr]; rfl
  · rw [hp]; rfl

theorem idle_iff (s : State) : s.idle = true ↔ s.switch.phase = .idle := by simp [State.idle]

/-! QUIET_COUNT_COMPLETE (R108) -/

theorem exec_quietCountComplete {s : State} {p : Nat} (hs : s.resetHigh = true) (hj : (s.entry p).state = .joining)
    (hq : (s.entry p).quiet = 16) : exec (.quietCountComplete p) s = .next (s.leaveJoining p) :=
  (whenReleased_underGuard hs _ _).trans (by rw [if_pos ((s.entry p).proven_iff.2 ⟨hj, hq⟩)])

theorem entry_leaveJoining (s : State) (p q : Nat) :
    (s.leaveJoining p).entry q = if q = p then s.chain.movedEntry s.idle p else s.entry q := by
  rw [← entry_moveEntry]
  unfold State.leaveJoining
  split
  · exact entry_ensureResync _ q
  · rfl

/-- R116: a JOINING entry with reason to resync waits while the Switch Engine is busy. -/
theorem leaveJoining_busy {s : State} {p : Nat} (hj : (s.entry p).state = .joining) (hr : (s.entry p).readies = false)
    (busy : s.switch.phase ≠ .idle) : s.leaveJoining p = s := by
  have stays : s.moveEntry p = s := by
    have noResync : ¬s.chain.resyncs s.idle p = true := fun h => busy ((idle_iff s).1 ((resyncs_iff _ _ _).1 h).1)
    rw [State.moveEntry, if_neg (by simp [hr]), if_neg noResync]
  rw [State.leaveJoining, stays, if_neg (by rw [hj]; nofun)]

/-- Settles O50: the entry leaves for READY, leaves for RESYNCING, or waits. -/
theorem quietCountCompletes : Obligations.QuietCountCompletes := by
  unfold Obligations.QuietCountCompletes
  intro s p hs joining quiet
  have f := leaveJoining_frame p s
  have moves (e : ChainEntry) (h : s.chain.movedEntry s.idle p = e) : (s.leaveJoining p).entry p = e := by
    rw [entry_leaveJoining, if_pos rfl, h]
  refine ⟨_, exec_quietCountComplete hs joining quiet, fun rejoined stale outOfStep => ?_, fun reason => ⟨fun idle => ?_,
    leaveJoining_busy joining ?_⟩, fun q hq => ?_, f.switch, f.ports, f.cycle, f.remote, f.commits⟩
  · exact moves _ (movedEntry_of_readies ((s.entry p).readies_iff.2 ⟨⟨joining, quiet⟩, rejoined, stale, outOfStep⟩))
  · exact moves _ (movedEntry_of_resyncs ((resyncs_iff _ _ _).2 ⟨(idle_iff s).2 idle, .inl ⟨⟨joining, quiet⟩, reason⟩⟩))
  · refine eq_false_of_ne_true fun ready => ?_
    obtain ⟨-, rejoined, stale, outOfStep⟩ := (s.entry p).readies_iff.1 ready
    simp [rejoined, stale, outOfStep] at reason
  · rw [entry_leaveJoining, if_neg hq]

/-! RESYNC_ENTRY (R116, R117) -/

theorem exec_resyncEntry {s : State} (hs : s.resetHigh = true) :
    exec .resyncEntry s = .next (if s.idle then s.moveEntries.ensureResync else s) := whenReleased_underGuard hs _ _

/-- Settles O51: each entry is its image under the table as it stood (`entry_moveEntries`). -/
theorem markedEntriesResync : Obligations.MarkedEntriesResync := by
  unfold Obligations.MarkedEntriesResync
  intro s hs
  refine ⟨fun idle => ?_, fun busy => ?_⟩
  · have f := (moveEntries_frame s).trans (ensureResync_frame _)
    have image (q : Nat) : s.moveEntries.ensureResync.entry q = s.chain.movedEntry s.idle q :=
      (entry_ensureResync _ q).trans (entry_moveEntries s q)
    have resyncs (q : Nat) (h : s.chain.resyncs s.idle q = true) :
        s.moveEntries.ensureResync.entry q = { s.entry q with state := .resyncing, attempts := 0 }
          ∧ s.moveEntries.ensureResync.chain.resync.isSome = true := by
      have moved := movedEntry_of_resyncs h
      refine ⟨(image q).trans moved, ensureResync_isSome (c := s.moveEntries.chain) (q := q) ?_⟩
      exact congrArg ChainEntry.state ((entry_moveEntries s q).trans moved)
    have stays (q : Nat) (h1 : (s.entry q).state = .joining → (s.entry q).quiet ≠ 16)
        (h2 : (s.entry q).state = .ready →
          ((s.entry q).stale = false ∧ (s.entry q).outOfStep = false) ∨ s.chain.beyondIsolated q = true) :
        s.moveEntries.ensureResync.entry q = s.entry q := (image q).trans (movedEntry_of_still h1 h2)
    have row : exec .resyncEntry s = .next s.moveEntries.ensureResync := by
      rw [exec_resyncEntry hs, if_pos ((idle_iff s).2 idle)]
    refine ⟨_, row, fun q ready marked reachable => resyncs q ?_, fun q joining quiet reason => resyncs q ?_,
      fun q ready still => stays q (fun h => ?_) fun _ => still, fun q joining quiet => stays q (fun _ => quiet) fun h => ?_,
      fun q out => stays q (fun h => ?_) fun h => ?_, f.switch, f.ports, f.cycle, f.remote⟩
    · exact (resyncs_iff _ _ _).2 ⟨(idle_iff s).2 idle, .inr ⟨ready, marked, reachable⟩⟩
    · exact (resyncs_iff _ _ _).2 ⟨(idle_iff s).2 idle, .inl ⟨⟨joining, quiet⟩, reason⟩⟩
    · rw [ready] at h; cases h
    · rw [joining] at h; cases h
    · simp [h] at out
    · simp [h] at out
  · rw [exec_resyncEntry hs, if_neg fun h => busy ((idle_iff s).1 h)]

end Sys2Proof.Machine


/-! ### The probe and its answer (R113, R114) -/

namespace Sys2Proof.Machine

/-! PROBE_DUE (R113) -/

theorem exec_probeDue {s : State} (hs : s.resetHigh = true) :
    exec .probeDue s = .next (s.actAlone State.probeReaches .probe State.tickProbe) := congrArg Host.Outcome.next (if_pos hs)

theorem probeReaches_iff (s : State) :
    s.probeReaches = true ↔ s.chain.state = .running ∧ s.switch.settings.probeInterval ≤ s.chain.probeCount + 1 := by
  simp [State.probeReaches]

theorem tickProbe_reaches {s : State} (h : s.probeReaches = true) : s.tickProbe = s.setChain s.chain.probeFalls := by
  rw [State.tickProbe, ((probeReaches_iff s).1 h).1]
  exact if_pos h

/-- A row that is one act of a cycle start, where the act is due and not made. -/
theorem actAlone_due {due : State → Bool} {a : CycleAct} {act : State → State} {s : State} (h : due s.openCycle = true)
    (hm : s.openCycle.cycle.made a = false) : s.actAlone due a act = (act s.openCycle).noteAct a := by
  rw [State.actAlone, h, hm]
  rfl

/-- A row that is one act of a cycle start, elsewhere (assumption 5). -/
theorem actAlone_stays {due : State → Bool} {a : CycleAct} {act : State → State} {s : State}
    (h : ¬due s.openCycle = true ∨ s.openCycle.cycle.made a = true) : s.actAlone due a act = s := by
  obtain ⟨isDue, notMade, -⟩ | ⟨-, e⟩ := actAlone_cases due a act s
  · rcases h with notDue | isMade
    · exact absurd isDue notDue
    · rw [notMade] at isMade; cases isMade
  · exact e

/-! The answer to a probe (R114) -/

/-- R114: a LOST entry of the same unit rejoins, any other joins as new. -/
def ChainEntry.probed (i : Identity) (e : ChainEntry) : ChainEntry :=
  if e.state = .lost ∧ i.sameUnit e.identity = true then e.rejoin i else e.joinNew i

/-- The chain when the answer to a probe enrols a position. -/
def ChainManager.probed (q : Nat) (i : Identity) (c : ChainManager) : ChainManager :=
  (c.setEntry q ((c.entry q).probed i)).endChanged

theorem entry_probed {c : ChainManager} {q : Nat} (i : Identity) (h1 : 1 ≤ q) (h2 : q ≤ 15) (r : Nat) :
    (c.probed q i).entry r = if r = q then (c.entry q).probed i else c.entry r := by
  simp only [ChainManager.probed, ChainManager.endChanged_entry, ChainManager.entry_setEntry, h1, h2, and_self, and_true]

/-- R114: whether a probe's answer finds another unit at a LOST position. -/
def ChainEntry.replacedBy (i : Identity) (e : ChainEntry) : Prop := e.state = .lost ∧ i.sameUnit e.identity = false

/-- R114: a unit that joins or rejoins. -/
theorem enrollByProbe_joined {s : State} {q : Nat} {i : Identity} (h : ¬(s.entry q).replacedBy i) :
    s.enrollByProbe q i = ((s.setChain (s.chain.probed q i)).raise (.endpointJoined q)).recompute := by
  unfold State.enrollByProbe
  split
  · next lost =>
    have same : i.sameUnit (s.entry q).identity = true := eq_true_of_ne_false fun other => h ⟨lost, other⟩
    rw [if_pos same, ChainManager.probed, ChainEntry.probed, if_pos ⟨lost, same⟩]
    rfl
  · next notLost =>
    rw [ChainManager.probed, ChainEntry.probed, if_neg fun h' => notLost h'.1]
    rfl

/-- R114: a unit that replaces a LOST one. -/
theorem enrollByProbe_replaced {s : State} {q : Nat} {i : Identity} (h : (s.entry q).replacedBy i) :
    s.enrollByProbe q i = ((((s.setChain (s.chain.probed q i)).markReplaced q).raise (.endpointReplaced q)).raise
      (.endpointJoined q)).recompute := by
  have other : ¬i.sameUnit (s.entry q).identity = true := by rw [h.2]; nofun
  rw [State.enrollByProbe, if_pos h.1, if_neg other, ChainManager.probed, ChainEntry.probed, if_neg fun h' => other h'.2]
  rfl

theorem sameUnit_iff (i j : Identity) : i.sameUnit (some j) = true ↔ i.kind = j.kind ∧ i.serial = j.serial := by
  simp [Identity.sameUnit]

theorem replacedBy_iff {e : ChainEntry} {j : Identity} (i : Identity) (hl : e.state = .lost) (hj : e.identity = some j) :
    e.replacedBy i ↔ i.kind ≠ j.kind ∨ i.serial ≠ j.serial := by
  rw [ChainEntry.replacedBy, hj, ← Bool.not_eq_true, sameUnit_iff, not_and_or, and_iff_right hl]

/-- R14: the streams in the plan, or about to enter it, that touch an endpoint. -/
theorem replacedAt_iff (r : Stream) {q : Nat} (hq : 1 ≤ q) :
    r.replacedAt q = true ↔ r.state ≠ .free ∧ r.state ≠ .staged ∧ q ∈ r.source :: r.sinks := by
  have touched : (endpointsOf r.source r.sinks).contains q = true ↔ q ∈ r.source :: r.sinks := by
    rw [List.contains_iff_mem, endpointsOf, List.mem_filter]
    exact and_iff_left (by simpa using Nat.ne_of_gt hq)
  rw [Stream.replacedAt, Bool.and_eq_true, touched]
  cases r.state <;> simp

/-- The streams after a unit is replaced (R14). -/
theorem stream_markReplaced (s : State) {q : Nat} (hq : 1 ≤ q) (h : Handle) :
    (s.markReplaced q).stream h =
      if (s.stream h).state ≠ .free ∧ (s.stream h).state ≠ .staged ∧ q ∈ (s.stream h).source :: (s.stream h).sinks
      then { s.stream h with mark := .replaced } else s.stream h := by
  rw [State.stream, State.markReplaced, Tab.get_map]
  exact if_congr (replacedAt_iff _ hq) rfl rfl

theorem answerChain_probe {a : Arrival} {q : Nat} {s : State} (hc : a.record.client = some (.chain .probe))
    (hq : a.record.target = q) : s.answerChain a = s.answerProbe q a.answer := by
  rw [State.answerChain, hc, ← hq]

/-- R114: an answer that is not taken changes nothing. -/
theorem answerProbe_untaken {s : State} {q : Nat} {ans : Option Answer}
    (h : q ≠ s.chain.endM + 1 ∨ identityAnswered ans = none) : s.answerProbe q ans = s := by
  unfold State.answerProbe
  split
  · next taken => rw [h.resolve_left fun hq => hq taken.2]
  · rfl

theorem answerProbe_taken {s : State} {q : Nat} {ans : Option Answer} {i : Identity} (hs : s.chain.state = .running)
    (hq : q = s.chain.endM + 1) (hi : identityAnswered ans = some i) : s.answerProbe q ans = s.enrollByProbe q i := by
  rw [State.answerProbe, if_pos ⟨hs, hq⟩, hi]

/-- R106, R114: only a valid OK answer carries an identity. -/
theorem identityAnswered_none {ans : Option Answer} (h : ans = none ∨ ∃ x, ans = some x ∧ x.result ≠ .ok) :
    identityAnswered ans = none := by
  rcases h with rfl | ⟨x, rfl, notOk⟩
  · rfl
  · exact if_neg notOk

theorem identityAnswered_ok {ans : Option Answer} {x : Answer} (h : ans = some x) (ok : x.result = .ok) :
    identityAnswered ans = identityOf x.payload := by
  rw [h]
  exact if_pos ok

/-- Settles O46: the row where the probe falls due and elsewhere (`actAlone_due`, `actAlone_stays`), then the answer by what
stands at the position sought. -/
theorem probeFallsDue : Obligations.ProbeFallsDue := by
  unfold Obligations.ProbeFallsDue
  refine ⟨?_, ?_⟩
  · rintro s u hs rfl
    rw [exec_probeDue hs]
    refine ⟨fun running reached notMade => ?_, fun running short => ?_, fun stopped => ?_, fun isMade => ?_⟩
    · have falls : s.openCycle.probeReaches = true := (probeReaches_iff _).2 ⟨running, reached⟩
      rw [actAlone_due falls notMade, tickProbe_reaches falls]
      rfl
    · rw [actAlone_stays (.inl fun h => absurd ((probeReaches_iff _).1 h).2 (Nat.not_le.2 short))]
    · rw [actAlone_stays (.inl fun h => stopped ((probeReaches_iff _).1 h).1)]
    · rw [actAlone_stays (.inr isMade)]
  · intro a q s client target running low high
    rw [answerChain_probe client target]
    refine ⟨fun untaken => answerProbe_untaken (untaken.imp id identityAnswered_none), fun ans i sought answered ok carried => ?_⟩
    have entry := entry_probed (c := s.chain) i low high
    have own : (s.chain.probed q i).entry q = (s.entry q).probed i := by rw [entry, if_pos rfl]; rfl
    rw [answerProbe_taken running sought ((identityAnswered_ok answered ok).trans carried)]
    refine ⟨s.chain.probed q i, fun r hr => (entry r).trans (if_neg hr), fun absent => ?_, fun j lost hj kind serial => ?_,
      fun j lost hj other => ?_⟩
    · have new : ¬(s.entry q).state = .lost := by rw [absent]; nofun
      exact ⟨own.trans (if_neg fun h => new h.1), enrollByProbe_joined fun h => new h.1⟩
    · have same : i.sameUnit (s.entry q).identity = true := by rw [hj]; exact (sameUnit_iff i j).2 ⟨kind, serial⟩
      exact ⟨own.trans (if_pos ⟨lost, same⟩), enrollByProbe_joined fun h => by rw [h.2] at same; cases same⟩
    · have replaced := (replacedBy_iff i lost hj).2 other
      refine ⟨own.trans (if_neg fun h => by rw [replaced.2] at h; cases h.2), _, fun h => ?_, enrollByProbe_replaced replaced⟩
      exact stream_markReplaced (s.setChain (s.chain.probed q i)) low h

end Sys2Proof.Machine


/-! ### BRINGUP_SEEK and its answer (R88, R105, R106, R138) -/

namespace Sys2Proof.Machine

/-! The SEEK in the slot (R88, R105, R138) -/

theorem exec_bringupSeek {s : State} (hs : s.resetHigh = true) :
    exec .bringupSeek s = .next (s.actAlone State.seekDue .slot State.grantSlot) := congrArg Host.Outcome.next (if_pos hs)

/-- R105: when a SEEK falls due. -/
theorem due_seek {b : BringUp} {n : Nat} (hn : b.cycles = some n)
    (h : (b.step = .wait ∧ n + 1 = 32) ∨ (b.step = .seek ∧ b.tries < 3 ∧ n + 1 = 32 + 8 * b.tries)) : b.due = .seek := by
  unfold BringUp.due
  rw [hn]
  rcases h with ⟨wait, now⟩ | ⟨seek, tries, now⟩
  · rw [wait]; exact if_pos now
  · rw [seek]; exact if_pos ⟨tries, now⟩

/-- R105: the try is counted. -/
theorem tick_seek {b : BringUp} {n : Nat} (hn : b.cycles = some n) (h : b.due = .seek) :
    b.tick = { b with step := .seek, tries := b.tries + 1, cycles := some (n + 1) } := by
  unfold BringUp.tick
  rw [h, hn]

/-- R88, R138: the slot goes to the chain client for the SEEK that is due, after the head checks. -/
theorem grantSlot_seek {u : State} {b : BringUp} {n : Nat} (hs : u.chain.state = .bringUp) (hb : u.chain.bringUp = some b)
    (hn : b.cycles = some n) (due : b.due = .seek) :
    u.grantSlot = ((u.headChecks.setArbiter { u.headChecks.arbiter with grant := some (.chain .bringUpSeek) }).setCycle
        { u.cycle with
          msg := bareMessage b.position .seek
          record := some { client := some (.chain .bringUpSeek), target := b.position, kind := .seek } }).setChain
      { u.chain with bringUp := some { b with step := .seek, tries := b.tries + 1, cycles := some (n + 1) } } := by
  have chain := headChecks_chain u
  have cycle := (headChecks_frame u).cycle
  unfold State.grantSlot
  generalize u.headChecks = v at chain cycle ⊢
  rw [← chain] at hs hb
  have chosen : v.chosen = some (.chain .bringUpSeek) := by
    rw [State.chosen, hs]
    simp only [State.bringUpClient, hb, due]
  have filled : v.fill (some (.chain .bringUpSeek)) = (v, bareMessage b.position .seek) := by
    simp only [State.fill, State.sendChain, hb]
  rw [chosen, State.grantTo, filled, ← chain, ← cycle, ← tick_seek hn due]
  simp only [State.tickBringUp, State.putMessage, State.setCycle_chain, State.setArbiter_chain, hs, hb]
  rfl

theorem seekDue_of_seek {s : State} {b : BringUp} (hs : s.chain.state = .bringUp) (hb : s.chain.bringUp = some b)
    (due : b.due = .seek) : s.seekDue = true := by
  simp [State.seekDue, State.bringUpClient, hs, hb, due]

/-! The CYCLE_START that carries it (R87, assumption 22) -/

/-- The message of the cycle and its record do not differ. -/
structure SlotKept (s t : State) : Prop where
  msg : t.cycle.msg = s.cycle.msg
  record : t.cycle.record = s.cycle.record

theorem SlotKept.refl (s : State) : SlotKept s s := ⟨rfl, rfl⟩

theorem SlotKept.trans {s t u : State} (a : SlotKept s t) (b : SlotKept t u) : SlotKept s u :=
  ⟨b.msg.trans a.msg, b.record.trans a.record⟩

theorem SlotKept.of_cycle {s t : State} (e : t.cycle = s.cycle) : SlotKept s t := by constructor <;> rw [e]

/-- R88: of the acts of a cycle start only the grant fills the slot. -/
theorem runAct_slot (m : Tab Sample 64) (s : State) {a : CycleAct} (ha : a ≠ .slot) : SlotKept s (s.runAct m a) := by
  cases a with
  | lease p => exact .of_cycle (tickLease_cycle p s)
  | switch => exact .of_cycle (switchCycle_frame s).cycle
  | probe => exact .of_cycle (tickProbe_frame s).cycle
  | slot => exact absurd rfl ha
  | lead =>
    have first : SlotKept s s.firstBringUp := by
      unfold State.firstBringUp
      split <;> exact ⟨rfl, rfl⟩
    exact first.trans ⟨rfl, rfl⟩

/-- A CYCLE_START whose grant has been made ahead of it leaves the slot as the grant filled it. -/
theorem nextCycle_slot (m : Tab Sample 64) (o : List CycleAct) {s : State} (hs : s.cycle.made .slot = true) :
    SlotKept s (s.nextCycle m o) := by
  have opened : s.openCycle = s := by
    rcases openCycle_cases s with ⟨e, -⟩ | ⟨none, -⟩
    · exact e
    · rw [made_of_none none] at hs; cases hs
  have acts : SlotKept s ((s.actsLeft o).foldl (State.runAct m) s) :=
    foldl_frame_mem .refl .trans (fun t a ha => runAct_slot m t fun e => by
      have left := (List.mem_filter.1 ha).2
      rw [e, hs] at left
      cases left) s
  rw [State.nextCycle, opened]
  exact acts.trans ⟨rfl, rfl⟩

/-- R66, R87: the lead block of a CYCLE_START whose grant has been made ahead of it carries the message of that grant. -/
theorem cycleStart_carries {s : State} (hs : s.resetHigh = true) (slot : s.cycle.made .slot = true)
    (lead : s.cycle.made .lead = false) (m : Tab Sample 64) (o : List CycleAct) :
    ∃ w l, exec (.cycleStart m o) s = .next w ∧ w.cycle.lead = some l ∧ l.cycle = s.cycle.counter.setWidth 16
      ∧ l.msg = s.cycle.msg ∧ w.cycle.record = s.cycle.record := by
  obtain ⟨-, goesOn, carries⟩ := cycleStartBeginsCycle.2 m o s hs
  obtain ⟨w, l, -, -, -, row, -, -, counter, -, block, cycle, -, -, -, msg, -⟩ := carries lead
  have row' : exec (.cycleStart m o) s = .next (s.nextCycle m o) := congrArg Host.Outcome.next (if_pos hs)
  cases row.symm.trans row'
  have kept := nextCycle_slot m o slot
  have begun : s.cycle.begun ≠ none := fun none => by rw [made_of_none none] at slot; cases slot
  rw [goesOn begun] at counter
  exact ⟨_, l, row, block, by rw [cycle, counter], msg.trans kept.msg, kept.record⟩

theorem openCycle_resetHigh (s : State) : s.openCycle.resetHigh = s.resetHigh := by
  rcases openCycle_cases s with ⟨e, -⟩ | ⟨-, -, -, e, -⟩
  · rw [e]
  · exact e

/-- In a cycle start in progress the act noted is made. -/
theorem made_noteAct_self (a : CycleAct) {s : State} (h : s.cycle.begun.isSome = true) : (s.noteAct a).cycle.made a = true := by
  obtain ⟨l, hl⟩ := Option.isSome_iff_exists.1 h
  simp [State.noteAct, CycleEngine.made, hl]

/-- R66, R87: the grant made ahead of it on a cycle start in progress, a CYCLE_START carries its message. -/
theorem noteSlot_carries {u t : State} (f : CycleFrame u t) (hs : u.resetHigh = true) (begun : u.cycle.begun.isSome = true)
    (lead : u.cycle.made .lead = false) (m : Tab Sample 64) (o : List CycleAct) :
    ∃ w l, exec (.cycleStart m o) (t.noteAct .slot) = .next w ∧ w.cycle.lead = some l
      ∧ l.cycle = u.cycle.counter.setWidth 16 ∧ l.msg = (t.noteAct .slot).cycle.msg
      ∧ w.cycle.record = (t.noteAct .slot).cycle.record := by
  have slot := made_noteAct_self .slot ((congrArg Option.isSome f.begun).trans begun)
  have notLead := (made_noteAct (a := .slot) (by decide) t).trans ((made_congr f.begun .lead).trans lead)
  rw [← f.counter]
  exact cycleStart_carries (s := t.noteAct .slot) (f.resetHigh.trans hs) slot notLead m o

/-! The answer to a bring-up SEEK (R106) -/

theorem answerChain_seek {a : Arrival} {p : Nat} {s : State} (hc : a.record.client = some (.chain .bringUpSeek))
    (hp : a.record.target = p) : s.answerChain a = s.answerSeek p a.answer := by
  rw [State.answerChain, hc, ← hp]

section

variable {s : State} {b : BringUp} {ans : Option Answer} (hs : s.chain.state = .bringUp) (hb : s.chain.bringUp = some b)
  (hstep : b.step = .seek)

include hs hb hstep

theorem answerSeek_identified {i : Identity} (h : identityAnswered ans = some i) :
    s.answerSeek b.position ans = s.enrollInBringUp b.position i := by
  simp [State.answerSeek, hs, hb, hstep, h]

theorem answerSeek_unanswered (h : identityAnswered ans = none) :
    s.answerSeek b.position ans = if 3 ≤ b.tries then s.setChain s.chain.enterRunning else s := by
  simp [State.answerSeek, hs, hb, hstep, h, Config.seekTries]

end

/-- R106: the chain when a position is enrolled in bring-up. -/
def ChainManager.broughtUp (p : Nat) (i : Identity) (c : ChainManager) : ChainManager :=
  (c.setEntry p ((c.entry p).joinNew i)).bringUpNext p

theorem entry_broughtUp (c : ChainManager) {p : Nat} (i : Identity) (h1 : 1 ≤ p) (h2 : p ≤ 15) (q : Nat) :
    (c.broughtUp p i).entry q = if q = p then (c.entry p).joinNew i else c.entry q := by
  have next : (c.broughtUp p i).entry q = (c.setEntry p ((c.entry p).joinNew i)).entry q := by
    unfold ChainManager.broughtUp ChainManager.bringUpNext
    split <;> rfl
  rw [next, ChainManager.entry_setEntry]
  simp only [h1, h2, and_self, and_true]

theorem broughtUp_goesOn {c : ChainManager} (hs : c.state = .bringUp) {p : Nat} (i : Identity) (h : p < 15) :
    (c.broughtUp p i).state = .bringUp
      ∧ (c.broughtUp p i).bringUp = some { position := p + 1, step := .wait, cycles := none, tries := 0 } := by
  rw [ChainManager.broughtUp, ChainManager.bringUpNext, if_pos h]
  exact ⟨(c.setEntry_state p _).trans hs, rfl⟩

theorem broughtUp_ends (c : ChainManager) (i : Identity) :
    (c.broughtUp 15 i).state = .running ∧ (c.broughtUp 15 i).bringUp = none := ⟨rfl, rfl⟩

/-- Settles O47: the grant (`grantSlot_seek`), the CYCLE_START that carries it (`cycleStart_carries`), then the answer. -/
theorem bringupSeekGoesOut : Obligations.BringupSeekGoesOut := by
  unfold Obligations.BringupSeekGoesOut
  refine ⟨?_, ?_⟩
  · rintro s u v b n hs rfl rfl bringing hb hn falls notMade
    have due := due_seek hn falls
    have row : exec .bringupSeek s = .next (s.openCycle.grantSlot.noteAct .slot) := by
      rw [exec_bringupSeek hs, actAlone_due (seekDue_of_seek bringing hb due) notMade]
    refine ⟨_, row, ?_, fun lead m o => ?_⟩
    · rw [grantSlot_seek bringing hb hn due]
      generalize s.openCycle.headChecks = v
      generalize s.openCycle = u
      rfl
    · exact noteSlot_carries (grantSlot_cycleFrame _) ((openCycle_resetHigh s).trans hs) (openCycle_begun_isSome s) lead m o
  · intro a b s client target bringing hb step low high
    rw [answerChain_seek client target]
    have unanswered (h : a.answer = none ∨ ∃ ans, a.answer = some ans ∧ ans.result ≠ .ok) :=
      answerSeek_unanswered bringing hb step (identityAnswered_none h)
    refine ⟨fun ans kind revision s3 s2 s1 s0 sources sinks answered ok payload => ?_, fun h => ⟨fun more => ?_, fun spent => ?_⟩⟩
    · have identity := identityAnswered_ok answered ok
      rw [payload] at identity
      have answer := answerSeek_identified bringing hb step identity
      have entry (i : Identity) := entry_broughtUp s.chain i low high
      refine ⟨_, answer, (entry _ _).trans (if_pos rfl), fun q hq => (entry _ q).trans (if_neg hq),
        broughtUp_goesOn bringing _, fun last => ?_⟩
      rw [last]
      exact broughtUp_ends s.chain _
    · rw [unanswered h, if_neg (Nat.not_le.2 more)]
    · rw [unanswered h, if_pos spent]
      exact ⟨s.chain.enterRunning, rfl, rfl, rfl, ChainManager.enterRunning_entry _⟩

end Sys2Proof.Machine

/-! ### One hop at one trail (Table 7-2, R126 to R131) -/

namespace Sys2Proof.Machine

/-! Charges and clean cycles (R126 to R128) -/

/-- R128: a charged hop has no clean cycle. -/
theorem charged_of_cleanCycle {t : Trail} {m p : Nat} (h : cleanCycle t m p = true) : charged t m p = false := by
  rw [cleanCycle, Bool.and_eq_true, Bool.not_eq_true'] at h
  exact h.2

namespace ChainEntry

section

variable {t : Trail} {m p : Nat} {e : ChainEntry}

theorem scored_of_charged (h : charged t m p = true) : e.scored t m p = e.charge := if_pos h

theorem scored_of_clean (h : cleanCycle t m p = true) : e.scored t m p = e.clean := by
  rw [scored, charged_of_cleanCycle h, if_neg Bool.false_ne_true, if_pos h]

theorem scored_of_neither (hc : charged t m p = false) (hn : cleanCycle t m p = false) : e.scored t m p = e := by
  rw [scored, hc, hn, if_neg Bool.false_ne_true, if_neg Bool.false_ne_true]

theorem scored_cases (t : Trail) (m p : Nat) (e : ChainEntry) :
    e.scored t m p = e.charge ∨ e.scored t m p = e.clean ∨ e.scored t m p = e := by
  unfold scored
  split
  · exact .inl rfl
  · split
    · exact .inr (.inl rfl)
    · exact .inr (.inr rfl)

theorem afterTrail_of_scored_eq (h : e.scored t m p = e) : e.afterTrail t m p = e := if_pos h

/-- A hop whose charge or clean cycle leaves its grade as it is. -/
theorem afterTrail_of_graded_eq (h : (e.scored t m p).graded = e.scored t m p) : e.afterTrail t m p = e.scored t m p := by
  unfold afterTrail
  split
  · next same => exact same.symm
  · exact h

theorem afterTrail_of_scored_ne (h : e.scored t m p ≠ e) : e.afterTrail t m p = (e.scored t m p).graded := if_neg h

end

variable {e : ChainEntry}

theorem hopState_charge (e : ChainEntry) : e.charge.hopState = e.hopState := by
  unfold charge
  split <;> rfl

theorem hopState_clean (e : ChainEntry) : e.clean.hopState = e.hopState := by
  unfold clean
  split <;> rfl

theorem hopScore_charge (h : e.hopState ≠ .isolated) : e.charge.hopScore = min 255 (e.hopScore + 8) := by
  rw [charge, if_neg h]

theorem hopScore_clean (h : e.hopState ≠ .isolated) : e.clean.hopScore = e.hopScore - 1 := by
  rw [clean, if_neg h]

theorem charge_of_isolated (h : e.hopState = .isolated) : e.charge = { e with cleanRun := 0 } := if_pos h

theorem clean_of_isolated (h : e.hopState = .isolated) : e.clean = { e with cleanRun := e.cleanRun + 1 } := if_pos h

/-! Grades (R129 to R131) -/

theorem graded_of_healthy (h : e.hopState = .healthy) :
    e.graded = if 96 ≤ e.hopScore then { e with hopState := .degraded } else e := by
  unfold graded
  rw [h]

theorem graded_of_degraded (h : e.hopState = .degraded) :
    e.graded = if 192 ≤ e.hopScore then { e with hopState := .isolated, cleanRun := 0 }
      else if e.hopScore ≤ 63 then { e with hopState := .healthy } else e := by
  unfold graded
  rw [h]

theorem graded_of_isolated (h : e.hopState = .isolated) : e.graded = if 256 ≤ e.cleanRun then e.recovered else e := by
  unfold graded
  rw [h]

theorem hopState_graded_of_healthy (h : e.hopState = .healthy) :
    e.graded.hopState = if 96 ≤ e.hopScore then .degraded else .healthy := by
  rw [graded_of_healthy h]
  split <;> [rfl; exact h]

theorem hopState_graded_of_degraded (h : e.hopState = .degraded) :
    e.graded.hopState = if 192 ≤ e.hopScore then .isolated else if e.hopScore ≤ 63 then .healthy else .degraded := by
  rw [graded_of_degraded h]
  split
  · rfl
  · split <;> [rfl; exact h]

/-- Only recovery from isolation writes a score as a hop is graded. -/
theorem hopScore_graded (h : e.hopState ≠ .isolated) : e.graded.hopScore = e.hopScore := by
  unfold graded
  split
  · split <;> rfl
  · split
    · rfl
    · split <;> rfl
  · next isolated => exact absurd isolated h

/-! The law of a hop (R124), by its grade -/

theorem hopLawful_healthy (h : e.hopState = .healthy) : e.hopLawful ↔ e.hopScore ≤ 95 ∧ e.cleanRun = 0 := by
  unfold hopLawful
  rw [h]

theorem hopLawful_degraded (h : e.hopState = .degraded) :
    e.hopLawful ↔ 64 ≤ e.hopScore ∧ e.hopScore ≤ 191 ∧ e.cleanRun = 0 := by
  unfold hopLawful
  rw [h]

theorem hopLawful_isolated (h : e.hopState = .isolated) :
    e.hopLawful ↔ 192 ≤ e.hopScore ∧ e.hopScore ≤ 255 ∧ e.cleanRun ≤ 256 := by
  unfold hopLawful
  rw [h]

/-- A lawful hop stands in the grade its score calls for. -/
theorem graded_of_lawful (law : e.hopLawful) (h : e.hopState ≠ .isolated) : e.graded = e := by
  cases grade : e.hopState with
  | healthy => rw [graded_of_healthy grade, if_neg (by have := ((hopLawful_healthy grade).1 law).1; omega)]
  | degraded =>
    obtain ⟨low, high, -⟩ := (hopLawful_degraded grade).1 law
    rw [graded_of_degraded grade, if_neg (by omega), if_neg (by omega)]
  | isolated => exact absurd grade h

/-- That only a hop that changed is graded makes a difference to an ISOLATED hop only. -/
theorem afterTrail_of_lawful (law : e.hopLawful) (h : e.hopState ≠ .isolated) (t : Trail) (m p : Nat) :
    e.afterTrail t m p = (e.scored t m p).graded := by
  unfold afterTrail
  split
  · next same => rw [same, graded_of_lawful law h]
  · rfl

/-! A hop that is not ISOLATED, after a trail (R128 to R130) -/

/-- R129: a charge moves a hop up by one grade at most, and never down. -/
theorem hopState_graded_charge (law : e.hopLawful) (h : e.hopState ≠ .isolated) :
    e.charge.graded.hopState =
      if 192 ≤ e.charge.hopScore then .isolated else if 96 ≤ e.charge.hopScore then .degraded else e.hopState := by
  have score := hopScore_charge h
  cases grade : e.hopState with
  | healthy =>
    have high := ((hopLawful_healthy grade).1 law).1
    rw [hopState_graded_of_healthy ((hopState_charge e).trans grade), if_neg (show ¬192 ≤ e.charge.hopScore by omega)]
  | degraded =>
    have low := ((hopLawful_degraded grade).1 law).1
    rw [hopState_graded_of_degraded ((hopState_charge e).trans grade), if_neg (show ¬e.charge.hopScore ≤ 63 by omega),
      ite_self]
  | isolated => exact absurd grade h

/-- R130: a clean cycle makes a DEGRADED hop HEALTHY at 63 or less, and moves no hop up. -/
theorem hopState_graded_clean (law : e.hopLawful) (h : e.hopState ≠ .isolated) :
    e.clean.graded.hopState = if e.hopState = .degraded ∧ e.clean.hopScore ≤ 63 then .healthy else e.hopState := by
  have score := hopScore_clean h
  cases grade : e.hopState with
  | healthy =>
    have high := ((hopLawful_healthy grade).1 law).1
    rw [hopState_graded_of_healthy ((hopState_clean e).trans grade), if_neg (show ¬96 ≤ e.clean.hopScore by omega), ite_self]
  | degraded =>
    have high := ((hopLawful_degraded grade).1 law).2.1
    rw [hopState_graded_of_degraded ((hopState_clean e).trans grade), if_neg (show ¬192 ≤ e.clean.hopScore by omega)]
    exact if_congr (and_iff_right rfl).symm rfl rfl
  | isolated => exact absurd grade h

/-! An ISOLATED hop, after a trail (R128, R131) -/

section

variable {t : Trail} {m p : Nat}

theorem afterTrail_isolated_charged (h : e.hopState = .isolated) (hc : charged t m p = true) :
    e.afterTrail t m p = { e with cleanRun := 0 } := by
  have scored := (scored_of_charged hc).trans (charge_of_isolated h)
  refine (afterTrail_of_graded_eq ?_).trans scored
  rw [scored]
  exact graded_of_isolated (e := { e with cleanRun := 0 }) h

/-- R131: the clean run is compared with 256 once the clean cycle is counted. -/
theorem afterTrail_isolated_clean (h : e.hopState = .isolated) (hn : cleanCycle t m p = true) :
    e.afterTrail t m p = if 256 ≤ e.cleanRun + 1 then e.recovered else { e with cleanRun := e.cleanRun + 1 } := by
  have scored := (scored_of_clean hn).trans (clean_of_isolated h)
  rw [afterTrail_of_scored_ne, scored]
  · exact graded_of_isolated (e := { e with cleanRun := e.cleanRun + 1 }) h
  · rw [scored]
    exact fun same => Nat.succ_ne_self _ (congrArg cleanRun same)

end

/-! The law of a hop is kept (R124) -/

/-- What a charge or a clean cycle makes of a lawful hop, before it is graded: its score is at most 8 above what its grade
allows, or 1 below, and the clean run of an ISOLATED one at most 1 above. -/
def hopUngraded (e : ChainEntry) : Prop :=
  match e.hopState with
  | .healthy => e.hopScore ≤ 103 ∧ e.cleanRun = 0
  | .degraded => 63 ≤ e.hopScore ∧ e.hopScore ≤ 199 ∧ e.cleanRun = 0
  | .isolated => 192 ≤ e.hopScore ∧ e.hopScore ≤ 255 ∧ e.cleanRun ≤ 257

theorem hopUngraded_charge (law : e.hopLawful) : e.charge.hopUngraded := by
  unfold hopUngraded charge
  unfold hopLawful at law
  cases grade : e.hopState <;>
    simp only [grade, reduceCtorEq, if_true, if_false, Config.hopCeiling, Config.hopCharge] at law ⊢ <;> omega

theorem hopUngraded_clean (law : e.hopLawful) : e.clean.hopUngraded := by
  unfold hopUngraded clean
  unfold hopLawful at law
  cases grade : e.hopState <;> simp only [grade, reduceCtorEq, if_true, if_false, Config.hopCeiling] at law ⊢ <;> omega

theorem hopLawful_recovered (e : ChainEntry) : e.recovered.hopLawful := ⟨Nat.zero_le _, rfl⟩

/-- Table 7-2: grading puts a hop into the grade of its score again. -/
theorem hopLawful_graded (h : e.hopUngraded) : e.graded.hopLawful := by
  unfold hopUngraded at h
  cases grade : e.hopState <;> rw [grade] at h
  case healthy =>
    rw [graded_of_healthy grade]
    split
    · exact (hopLawful_degraded rfl).2 ⟨by show 64 ≤ e.hopScore; omega, by show e.hopScore ≤ 191; omega, h.2⟩
    · exact (hopLawful_healthy grade).2 ⟨by omega, h.2⟩
  case degraded =>
    obtain ⟨low, high, run⟩ := h
    rw [graded_of_degraded grade]
    split
    · next up => exact (hopLawful_isolated rfl).2 ⟨up, by show e.hopScore ≤ 255; omega, Nat.zero_le _⟩
    · split
      · exact (hopLawful_healthy rfl).2 ⟨by show e.hopScore ≤ 95; omega, run⟩
      · exact (hopLawful_degraded grade).2 ⟨by omega, by omega, run⟩
  case isolated =>
    obtain ⟨low, high, -⟩ := h
    rw [graded_of_isolated grade]
    split
    · exact hopLawful_recovered e
    · exact (hopLawful_isolated grade).2 ⟨low, high, by omega⟩

/-- R124: the hop of an entry stays lawful at a trail. -/
theorem hopLawful_afterTrail (law : e.hopLawful) (t : Trail) (m p : Nat) : (e.afterTrail t m p).hopLawful := by
  by_cases same : e.scored t m p = e
  · rw [afterTrail_of_scored_eq same]
    exact law
  · rw [afterTrail_of_scored_ne same]
    rcases scored_cases t m p e with charged | clean | still
    · rw [charged]
      exact hopLawful_graded (hopUngraded_charge law)
    · rw [clean]
      exact hopLawful_graded (hopUngraded_clean law)
    · exact absurd still same

end ChainEntry

/-- Settles O52: a hop that is not ISOLATED is scored and then graded (`afterTrail_of_lawful`); an ISOLATED one counts its
clean run. -/
theorem hopGrading : Obligations.HopGrading := by
  unfold Obligations.HopGrading
  rintro t m p e f law rfl
  refine ⟨fun hc hn => ChainEntry.afterTrail_of_scored_eq (ChainEntry.scored_of_neither hc hn), fun hc h => ?_, fun hn h => ?_,
    fun hc h => ChainEntry.afterTrail_isolated_charged h hc, fun hn h short => ?_, fun hn h full => ?_⟩
  · have charged : e.charge.hopState ≠ .isolated := (ChainEntry.hopState_charge e).trans_ne h
    rw [ChainEntry.afterTrail_of_lawful law h, ChainEntry.scored_of_charged hc, ChainEntry.hopScore_graded charged]
    exact ⟨ChainEntry.hopScore_charge h, ChainEntry.hopState_graded_charge law h⟩
  · have clean : e.clean.hopState ≠ .isolated := (ChainEntry.hopState_clean e).trans_ne h
    rw [ChainEntry.afterTrail_of_lawful law h, ChainEntry.scored_of_clean hn, ChainEntry.hopScore_graded clean]
    exact ⟨ChainEntry.hopScore_clean h, ChainEntry.hopState_graded_clean law h⟩
  · rw [ChainEntry.afterTrail_isolated_clean h hn, if_neg (Nat.not_le.2 short)]
  · rw [ChainEntry.afterTrail_isolated_clean h hn, if_pos full]
    rfl

end Sys2Proof.Machine

/-! ### ISOLATION_RECOVERY (R131, R132, R134) -/

namespace Sys2Proof.Machine

theorem exec_isolationRecovery {s : State} {p : Nat} (hs : s.resetHigh = true) (isolated : (s.entry p).hopState = .isolated)
    (run : 256 ≤ (s.entry p).cleanRun) :
    exec (.isolationRecovery p) s = .next ((s.recoverHop p).settleWork .resyncFirst) := by
  have recovers : s.hopRecovers p = true := by simp [State.hopRecovers, isolated, run]
  exact (whenReleased_underGuard hs _ _).trans (by rw [if_pos recovers])

/-- R131: recovery replaces the entry of its hop, and the report leaves the chain. -/
theorem recoverHop_chain (p : Nat) (s : State) : (s.recoverHop p).chain = s.chain.setEntry p (s.entry p).recovered :=
  (reportHops_frame s _).chain

/-- Settles O48: the entries after recovery (`recoverHop_chain`), which what it sets free stirs at most: marks, moves and a
resync transfer are no part of a hop. -/
theorem isolationRecoveryClearsHop : Obligations.IsolationRecoveryClearsHop := by
  unfold Obligations.IsolationRecoveryClearsHop
  intro s p hs low high isolated run
  have stirred (q : Nat) : (if q = p then (s.entry p).recovered else s.entry q).Stirred
      (((s.recoverHop p).settleWork .resyncFirst).entry q) := by
    have entry : (s.recoverHop p).chain.entry q = if q = p then (s.entry p).recovered else s.entry q := by
      rw [recoverHop_chain, ChainManager.entry_setEntry]
      simp only [low, high, and_self, and_true]
      rfl
    exact entry ▸ (settleWork_stirs .resyncFirst (s.recoverHop p)).entry q
  have f := (recoverHop_frame p s).toFormFrame.trans (settleWork_frame .resyncFirst _)
  have epoch := (ActiveKept.of_frame (recoverHop_frame p s)).trans (settleWork_active .resyncFirst _) |>.epoch
  refine ⟨_, exec_isolationRecovery hs isolated run, ?_, ?_, ?_, fun q hq => ?_, f.ports, f.cycle, f.remote, epoch⟩
  · rw [(stirred p).rest, if_pos rfl]; rfl
  · rw [(stirred p).rest, if_pos rfl]; rfl
  · rw [(stirred p).rest, if_pos rfl]; rfl
  · rw [(stirred q).rest, if_neg hq]
    exact ⟨rfl, rfl, rfl⟩

end Sys2Proof.Machine

/-! ### The hops stay lawful, operation by operation (R124, R128 to R131) -/

namespace Sys2Proof.Machine

theorem hopLawful_reset : ChainEntry.reset.hopLawful := ⟨Nat.zero_le _, rfl⟩

/-- R125: a lost position has its hop at the reset values. -/
theorem hopLawful_lose (e : ChainEntry) : e.lose.hopLawful := ⟨Nat.zero_le _, rfl⟩

/-- Each hop that is lawful stays lawful, whatever the others are. -/
def ChainManager.HopsKept (c d : ChainManager) : Prop := ∀ p, (c.entry p).hopLawful → (d.entry p).hopLawful

namespace ChainManager

variable {c d : ChainManager}

theorem HopsKept.of_entry (h : ∀ p, d.entry p = c.entry p) : c.HopsKept d := fun p law => by rw [h]; exact law

theorem HopsKept.of_lawful (h : ∀ p, (d.entry p).hopLawful) : c.HopsKept d := fun p _ => h p

/-- Marks, moves and a resync transfer are no part of a hop. -/
theorem Stirred.hopsKept (f : c.Stirred d) : c.HopsKept d := fun p law => by
  rw [(f.entry p).rest]
  exact law

theorem hopsKept_setEntry {p : Nat} {e : ChainEntry} (h : (c.entry p).hopLawful → e.hopLawful) :
    c.HopsKept (c.setEntry p e) := fun q law => by
  rw [entry_setEntry]
  split
  · next hq => exact h (hq.1 ▸ law)
  · exact law

theorem hopsKept_mapEntries {f : Nat → ChainEntry} (h : ∀ p, (c.entry p).hopLawful → (f p).hopLawful) :
    c.HopsKept (c.mapEntries f) := fun q law => by
  rw [entry_mapEntries]
  split
  · exact h q law
  · exact hopLawful_reset

theorem hopsKept_lose (c : ChainManager) (ps : List Nat) : c.HopsKept (c.lose ps) := fun q law => by
  rw [entry_lose]
  split
  · exact hopLawful_lose _
  · exact law

end ChainManager

/-- Each hop of the head that is lawful stays lawful. -/
def HopsKept (s t : State) : Prop := s.chain.HopsKept t.chain

namespace HopsKept

theorem hopLaw {s t : State} (f : HopsKept s t) (h : s.hopLaw) : t.hopLaw := fun p => f p (h p)

theorem refl (s : State) : HopsKept s s := fun _ => id

theorem trans {s t u : State} (a : HopsKept s t) (b : HopsKept t u) : HopsKept s u := fun p law => b p (a p law)

theorem foldl {β : Type} {f : State → β → State} (h : ∀ s x, HopsKept s (f s x)) (l : List β) (s : State) :
    HopsKept s (l.foldl f s) := foldl_frame .refl .trans h l s

theorem of_chain {s t : State} (e : t.chain = s.chain) : HopsKept s t := .of_entry fun p => by rw [e]

theorem of_frame {s t : State} (f : StreamFrame s t) : HopsKept s t := of_chain f.chain

theorem of_stirs {s t : State} (f : Stirs s t) : HopsKept s t := f.hopsKept

theorem setChain {s : State} {c : ChainManager} (h : s.chain.HopsKept c) : HopsKept s (s.setChain c) := h

theorem setEntry {s : State} {p : Nat} {e : ChainEntry} (h : (s.entry p).hopLawful → e.hopLawful) :
    HopsKept s (s.setEntry p e) := ChainManager.hopsKept_setEntry h

/-- A change of the chain that keeps the hops lawful, its report to the Router and the recomputation it calls for. -/
theorem report {s t : State} {c : ChainManager} (h : s.chain.HopsKept c) (f : StreamFrame (s.setChain c) t) : HopsKept s t :=
  (setChain h).trans (of_frame f)

end HopsKept

/-! Losses and the reading of a trail (R109 to R111, R125) -/

theorem losePositions_hops (ps : List Nat) (s : State) : HopsKept s (s.losePositions ps) := by
  by_cases none : ps = []
  · rw [none]
    exact .refl s
  · exact fun p law => (losePositions_stirs none s).hopsKept p (s.chain.hopsKept_lose ps p law)

theorem breakChain_hops (s : State) : HopsKept s s.breakChain :=
  losePositions_hops (s.chain.enrolledAbove s.chain.largestShort) (s.setChain s.chain.clearBreak)

theorem applyBreak_hops (a : Arrival) (m : Meet) (s : State) : HopsKept s (s.applyBreak a m) := by
  have counted : HopsKept s (s.setChain (s.chain.countShort a.trail.reach)) := by
    refine .of_entry fun p => ?_
    show (s.chain.countShort a.trail.reach).entry p = s.chain.entry p
    unfold ChainManager.countShort
    split
    · rfl
    · split <;> rfl
  unfold State.applyBreak
  dsimp only
  split
  · exact counted.trans ((breakChain_hops _).trans (.of_stirs (settleWork_stirs m _)))
  · exact counted

/-- R109: reported epochs and quiet counts are no part of a hop. -/
theorem hopLawful_readTrail {e : ChainEntry} (law : e.hopLawful) (f : Option TrailFields) : (e.readTrail f).hopLawful := law

theorem readEntries_hops (a : Arrival) (s : State) : HopsKept s (s.readEntries a) := by
  have read : s.chain.HopsKept (s.chain.mapEntries fun p => (s.entry p).readTrail (a.trail.valid p)) :=
    ChainManager.hopsKept_mapEntries fun p law => hopLawful_readTrail law _
  exact (HopsKept.setChain read).trans (.of_stirs (moveEntries_stirs _))

/-! The answers of the chain client (R106, R112, R114, R118) -/

theorem answerSeek_hops (p : Nat) (ans : Option Answer) (s : State) : HopsKept s (s.answerSeek p ans) := by
  have enrolled (i : Identity) : HopsKept s (s.enrollInBringUp p i) := by
    refine .report (fun q law => ?_) (raiseRecompute_frame _ _)
    have joined := ChainManager.hopsKept_setEntry (e := (s.chain.entry p).joinNew i) id q law
    unfold ChainManager.bringUpNext
    split <;> exact joined
  unfold State.answerSeek
  split
  · split
    · split
      · exact enrolled _
      · split
        · exact .of_entry (ChainManager.enterRunning_entry s.chain)
        · exact .refl s
    · exact .refl s
  · exact .refl s

theorem hopLawful_probed {e : ChainEntry} (law : e.hopLawful) (i : Identity) : (e.probed i).hopLawful := by
  unfold ChainEntry.probed
  split <;> exact law

theorem enrollByProbe_hops (q : Nat) (i : Identity) (s : State) : HopsKept s (s.enrollByProbe q i) := by
  have probed : s.chain.HopsKept (s.chain.probed q i) := fun r law => by
    rw [ChainManager.probed, ChainManager.endChanged_entry]
    exact ChainManager.hopsKept_setEntry (hopLawful_probed · i) r law
  by_cases replaced : (s.entry q).replacedBy i
  · rw [enrollByProbe_replaced replaced]
    exact .report probed
      ((streams_frame _ _).trans ((raise_frame _ _).toStreamFrame.trans (raiseRecompute_frame _ _)))
  · rw [enrollByProbe_joined replaced]
    exact .report probed (raiseRecompute_frame _ _)

theorem answerProbe_hops (q : Nat) (ans : Option Answer) (s : State) : HopsKept s (s.answerProbe q ans) := by
  unfold State.answerProbe
  split
  · split
    · exact enrollByProbe_hops q _ s
    · exact .refl s
  · exact .refl s

theorem answerExtend_hops (p : Nat) (ans : Option Answer) (s : State) : HopsKept s (s.answerExtend p ans) := by
  unfold State.answerExtend
  split <;> exact fun _ => id

theorem answerResync_hops (p : Nat) (ans : Option Answer) (s : State) : HopsKept s (s.answerResync p ans) := by
  have sealed : s.chain.HopsKept (s.chain.setEntry p (s.entry p).resynced) := ChainManager.hopsKept_setEntry id
  have done : HopsKept s (s.resyncDone p) :=
    .report (c := { s.chain.setEntry p (s.entry p).resynced with resync := none }) sealed (raiseRecompute_frame _ _)
  have failed : HopsKept s (s.resyncFailed p) := by
    unfold State.resyncFailed
    split
    · exact fun _ => id
    · exact losePositions_hops _ s
  unfold State.answerResync
  split
  · split
    · split
      · exact done
      · exact failed
    · exact .refl s
  · exact .refl s

theorem answerChain_hops (a : Arrival) (s : State) : HopsKept s (s.answerChain a) := by
  unfold State.answerChain
  split
  · exact answerSeek_hops _ _ s
  · exact answerExtend_hops _ _ s
  · exact answerResync_hops _ _ s
  · exact answerProbe_hops _ _ s
  all_goals exact .refl s

theorem readChain_hops (a : Arrival) (m : Meet) (s : State) : HopsKept s (s.readChain a m) :=
  ((applyBreak_hops a m (s.setChain (s.chain.seeTrail a.trail))).trans (readEntries_hops a _)).trans (answerChain_hops a _)

/-! The Hop Health Monitor (R128 to R132) -/

theorem readHops_hops (a : Arrival) (s : State) : HopsKept s (s.readHops a) := by
  have graded (s' : State) (p : Nat) : HopsKept s' (s'.gradeHop a.trail s.chain.endM p) := by
    unfold State.gradeHop
    split
    · exact .setEntry fun law => ChainEntry.hopLawful_afterTrail law _ _ _
    · exact .refl s'
  exact (HopsKept.foldl graded positions s).trans (.of_frame (reportHops_frame _ _))

theorem recoverHop_hops (p : Nat) (s : State) : HopsKept s (s.recoverHop p) :=
  HopsKept.trans (.setEntry fun _ => ChainEntry.hopLawful_recovered _) (.of_frame (reportHops_frame s _))

/-! The trail arrival -/

theorem runReader_hops (a : Arrival) (m : Meet) (s : State) (r : Reader) : HopsKept s (s.runReader a m r) := by
  have read {t : State} (h : HopsKept s t) : HopsKept s (t.settleWork m) := h.trans (.of_stirs (settleWork_stirs m t))
  cases r with
  | hop => exact read (readHops_hops a s)
  | chain => exact read (readChain_hops a m s)
  | switch => exact read (.of_stirs (readSwitch_stirs a s))
  | fetch => exact read (.of_chain (readFetch_chain a s))
  | remote => exact read (.of_chain (readRemote_chain a s))

theorem arrive_hops (up : Option UpPass) (o : TrailOrder) (s : State) : HopsKept s (s.arrive up o) := by
  unfold State.arrive
  split
  · exact (HopsKept.of_chain (State.setCycle_chain s _)).trans (.foldl (runReader_hops _ _) _ _)
  · exact .refl s

theorem openCycle_hops (s : State) : HopsKept s s.openCycle := by
  unfold State.openCycle
  split
  · exact .refl s
  · exact (arrive_hops none TrailOrder.default s).trans (.of_chain rfl)

/-! The acts of a cycle start: none writes a hop -/

theorem expireLease_hops (p : Port) (s : State) : HopsKept s (s.expireLease p) :=
  (HopsKept.of_chain (endSession_engines p _ s).chain).trans (.of_stirs (formIfDue_stirs _))

theorem tickLease_hops (p : Port) (s : State) : HopsKept s (s.tickLease p) := by
  rcases tickLease_cases p s with ⟨e, -⟩ | ⟨n, -, -, -, e⟩ | ⟨e, -⟩ <;> rw [e]
  · exact expireLease_hops p s
  · exact .of_chain rfl
  · exact .refl s

theorem tickProbe_hops (s : State) : HopsKept s s.tickProbe := by
  unfold State.tickProbe
  split
  · exact .refl s
  · exact .refl s
  · split <;> exact fun _ => id

/-- R117: counting an attempt is no part of a hop. -/
theorem sendResync_hops (r : ResyncTransfer) (s : State) : HopsKept s (s.sendResync r).1 := by
  have counted : s.chain.HopsKept (s.chain.countAttempt r) := by
    unfold ChainManager.countAttempt
    split
    · exact ChainManager.hopsKept_setEntry id
    · exact fun _ => id
  unfold State.sendResync
  dsimp only
  split <;> exact counted

theorem sendChain_hops (i : ChainItem) (s : State) : HopsKept s (s.sendChain i).1 := by
  unfold State.sendChain
  cases i <;> dsimp only
  case bringUpExtend | bringUpSeek | extend => split <;> exact .refl s
  case resyncLine | resyncSeal =>
    split
    · exact sendResync_hops _ s
    · exact .refl s
  case probe => exact fun _ => id

theorem fill_hops (c : Option Client) (s : State) : HopsKept s (s.fill c).1 := by
  unfold State.fill
  split
  · exact .refl s
  · exact .of_chain rfl
  · exact sendChain_hops _ s
  · unfold State.sendFetch; split <;> exact .of_chain rfl
  · unfold State.sendRemote; split <;> exact .of_chain rfl

theorem grantSlot_hops (s : State) : HopsKept s s.grantSlot := by
  have put (c : Option Client) (m : ControlMsg) (t : State) : HopsKept t (t.putMessage c m) := .of_chain rfl
  have ticked (t : State) : HopsKept t t.tickBringUp := by
    unfold State.tickBringUp
    split <;> exact fun _ => id
  exact (((HopsKept.of_chain (headChecks_chain s)).trans (fill_hops _ _)).trans (put _ _ _)).trans (ticked _)

theorem firstBringUp_hops (s : State) : HopsKept s s.firstBringUp := by
  unfold State.firstBringUp
  split <;> exact fun _ => id

theorem runAct_hops (m : Tab Sample 64) (s : State) (a : CycleAct) : HopsKept s (s.runAct m a) := by
  cases a with
  | lease p => exact tickLease_hops p s
  | switch => exact .of_chain (switchCycle_chain s)
  | probe => exact tickProbe_hops s
  | slot => exact grantSlot_hops s
  | lead => exact (firstBringUp_hops s).trans (.of_chain rfl)

theorem nextCycle_hops (m : Tab Sample 64) (o : List CycleAct) (s : State) : HopsKept s (s.nextCycle m o) := by
  unfold State.nextCycle State.makeActs
  exact ((openCycle_hops s).trans (.foldl (runAct_hops m) _ _)).trans (.of_chain rfl)

theorem actAlone_hops {due : State → Bool} {a : CycleAct} {act : State → State} (h : ∀ s, HopsKept s (act s)) (s : State) :
    HopsKept s (s.actAlone due a act) := by
  obtain ⟨-, -, e⟩ | ⟨-, e⟩ := actAlone_cases due a act s <;> rw [e]
  · exact ((openCycle_hops s).trans (h _)).trans (.of_chain rfl)
  · exact .refl s

end Sys2Proof.Machine


/-! ### What a transaction of a host port makes of the chain, and the hops at every command (R121, R122, R124) -/

namespace Sys2Proof.Machine

/-- The chain is stirred at most, as it stood or as an accepted restart begins it anew. -/
def StirsOrRestarts (s t : State) : Prop :=
  ∃ c : ChainManager, (c = s.chain ∨ c = ChainManager.restarted) ∧ c.Stirred t.chain

namespace StirsOrRestarts

theorem of_stirs {s t : State} (f : Stirs s t) : StirsOrRestarts s t := ⟨s.chain, .inl rfl, f⟩

theorem of_chain {s t : State} (e : t.chain = s.chain) : StirsOrRestarts s t := of_stirs (.of_chain e)

theorem refl (s : State) : StirsOrRestarts s s := of_chain rfl

theorem trans {s t u : State} (a : StirsOrRestarts s t) (b : StirsOrRestarts t u) : StirsOrRestarts s u := by
  obtain ⟨c, hc, f⟩ := a
  obtain ⟨d, rfl | rfl, g⟩ := b
  · exact ⟨c, hc, f.trans g⟩
  · exact ⟨_, .inr rfl, g⟩

theorem hops {s t : State} (f : StirsOrRestarts s t) : HopsKept s t := by
  obtain ⟨c, rfl | rfl, stirred⟩ := f
  · exact stirred.hopsKept
  · exact fun p _ => stirred.hopsKept p (by rw [chainRestarted_entry]; exact hopLawful_reset)

end StirsOrRestarts

theorem takeChainRestart_restarts (p : Port) (a : Unit) (s : State) : StirsOrRestarts s (s.takeChainRestart p a).1 := by
  unfold State.takeChainRestart
  split
  · exact .refl s
  · split
    · exact .refl s
    · have restarted : (s.restartChain p).chain = ChainManager.restarted := (restartChain_router p s).chain
      exact ⟨_, .inr rfl, restarted ▸ .refl _⟩

theorem requestThen_stirs {α : Type} {open? : Bool} {p : Port} {b : Sized α} {owner : α → State → State × Response}
    {after : State → State} (h : ∀ a s, StirsOrRestarts s (owner a s).1) (ha : ∀ s, StirsOrRestarts s (after s))
    (s : State) : StirsOrRestarts s (s.requestThen open? p b owner after) :=
  requestThen_rel .refl .trans (fun _ _ _ => .of_chain rfl) h ha s

theorem request_stirs {α : Type} {open? : Bool} {p : Port} {b : Sized α} {owner : α → State → State × Response}
    (h : LeavesChain owner) (s : State) : StirsOrRestarts s (s.request open? p b owner) :=
  requestThen_stirs (fun a s => .of_chain (h a s)) .refl s

/-- Of the transactions only an accepted restart does more to the chain than stir it, by a batch that forms. -/
theorem exec_stirs_of_hostPort {c : Instr} {p : Port} (hc : hostPort c = some p) {s t : State} (e : exec c s = .next t) :
    StirsOrRestarts s t := by
  have released {f : State → State} (h : ∀ s, StirsOrRestarts s (f s)) (e : s.whenReleased f = .next t) :
      StirsOrRestarts s t := whenReleased_keeps .refl h e
  have formed (s : State) : StirsOrRestarts s s.formIfDue := .of_stirs (formIfDue_stirs s)
  cases c <;> cases hc
  case frameError => exact released (fun s => .of_chain (refuse_chain _ _ s)) e
  case badRequest => exact released (fun s => .of_chain (refuse_chain _ _ s)) e
  case responseRead => exact released (fun s => .of_chain (State.setPort_chain s _ _)) e
  case attach => exact released (request_stirs (takeAttach_chain _)) e
  case detach => exact released (requestThen_stirs (fun a s => .of_chain (takeDetach_chain _ a s)) formed) e
  case portStatus => exact released (request_stirs fun _ _ => rfl) e
  case draftOpen => exact released (request_stirs (takeDraftOpen_chain _)) e
  case draftClose => exact released (request_stirs (takeDraftClose_chain _)) e
  case draftResize => exact released (request_stirs (takeDraftResize_chain _)) e
  case draftSet => exact released (request_stirs (takeDraftSet_chain _)) e
  case draftDrop => exact released (request_stirs (takeDraftDrop_chain _)) e
  case draftClear => exact released (request_stirs (takeDraftClear_chain _)) e
  case draftView => exact released (request_stirs (takeDraftView_chain _)) e
  case commit => exact released (requestThen_stirs (fun a s => .of_chain (takeCommit_chain _ a s)) formed) e
  case withdraw => exact released (request_stirs (takeWithdraw_chain _)) e
  case streamInfo => exact released (request_stirs takeStreamInfo_chain) e
  case listStreams => exact released (request_stirs takeListStreams_chain) e
  case planInfo => exact released (request_stirs fun _ _ => rfl) e
  case chainInfo => exact released (request_stirs takeChainInfo_chain) e
  case chainRestart => exact released (requestThen_stirs (takeChainRestart_restarts _) .refl) e
  case remoteRead => exact released (request_stirs fun _ => takeRemote_chain _ _) e
  case remoteWrite => exact released (request_stirs fun _ => takeRemote_chain _ _) e
  case subscribe => exact released (request_stirs (takeSubscribe_chain _)) e
  case readQueue => exact released (request_stirs (takeReadQueue_chain _)) e

/-- What a change keeps, it keeps under its condition. -/
theorem underGuard_keeps {R : State → State → Prop} (refl : ∀ s, R s s) {c : State → Bool} {f : State → State}
    (h : ∀ s, R s (f s)) (s : State) : R s (s.underGuard c f) := by
  unfold State.underGuard
  split
  · exact h s
  · exact refl s

/-- R124 at every command. -/
theorem exec_hops (c : Instr) {s t : State} (e : exec c s = .next t) : HopsKept s t := by
  have released {f : State → State} (h : ∀ s, HopsKept s (f s)) (e : s.whenReleased f = .next t) : HopsKept s t :=
    whenReleased_keeps .refl h e
  have guarded {c : State → Bool} {f : State → State} (h : ∀ s, HopsKept s (f s))
      (e : s.whenReleased (State.underGuard c f) = .next t) : HopsKept s t := released (underGuard_keeps .refl h) e
  have settled (m : Meet) {f : State → State} (h : ∀ s, HopsKept s (f s)) (s : State) : HopsKept s ((f s).settleWork m) :=
    (h s).trans (.of_stirs (settleWork_stirs m _))
  cases c
  case deviceReset => cases e; exact .of_lawful fun p => (chainReset_entry p).symm ▸ hopLawful_reset
  case resetRelease => cases e; exact .of_chain rfl
  case cycleStart m o => exact released (nextCycle_hops m o) e
  case trailArrival up o => exact released (arrive_hops (some up) o) e
  case receiveWindowClose o => exact released (arrive_hops none o) e
  case leaseExpiry p => exact released (actAlone_hops (expireLease_hops p)) e
  case probeDue => exact released (actAlone_hops tickProbe_hops) e
  case bringupSeek => exact released (actAlone_hops grantSlot_hops) e
  case switchCycle => exact released (actAlone_hops fun s => .of_chain (switchCycle_chain s)) e
  case batchFormation => exact released (fun s => .of_stirs (formIfDue_stirs s)) e
  case isolationRecovery p => exact guarded (settled .resyncFirst (recoverHop_hops p)) e
  case breakDetected m => exact guarded (settled m breakChain_hops) e
  case quietCountComplete p => exact guarded (fun s => .of_stirs (leaveJoining_stirs p s)) e
  case resyncEntry => exact guarded (fun s => .of_stirs ((moveEntries_stirs s).trans (ensureResync_stirs _))) e
  case prepareTimeout m => exact guarded (settled m fun s => .of_stirs (abandon_stirs _ s)) e
  case settleEnd m => exact guarded (settled m fun s => .of_stirs (settleEnd_stirs s)) e
  all_goals exact (exec_stirs_of_hostPort rfl e).hops

/-- Settles O59: a hop is written at a trail (`ChainEntry.hopLawful_afterTrail`), and is put at its reset values by recovery,
a loss, a restart or the device reset; nothing else writes one. -/
theorem hopScoresKept : Obligations.HopScoresKept := by
  unfold Obligations.HopScoresKept
  intro s t hs e
  unfold step at e
  split at e
  · cases e; exact hs
  · exact (exec_hops _ e).hopLaw hs

end Sys2Proof.Machine


/-! ### A port holds at most four remote requests (R139, R141 to R148) -/

namespace Sys2Proof.Machine

/-! The requests a port holds (R139, R147) -/

/-- The part of the outstanding record in what a port holds: 1 for its own request, unless that is discarded (R147). -/
def outstandingFor (p : Port) : Option Outstanding → Nat
  | some o => if o.port = p ∧ o.discarded = false then 1 else 0
  | none => 0

theorem remoteHeld_eq (s : State) (p : Port) :
    s.remoteHeld p = (s.remoteQueue p).length + outstandingFor p s.remote.outstanding := rfl

theorem remoteHeld_setRemoteQueue (s : State) (p q : Port) (l : List RemoteRequest) :
    (s.setRemoteQueue p l).remoteHeld q
      = (if q = p then l.length else (s.remoteQueue q).length) + outstandingFor q s.remote.outstanding := by
  rw [remoteHeld_eq, State.remoteQueue_setRemoteQueue, apply_ite List.length]
  rfl

theorem remoteHeld_setOutstanding (s : State) (o : Option Outstanding) (p : Port) :
    (s.setOutstanding o).remoteHeld p = (s.remoteQueue p).length + outstandingFor p o := rfl

theorem outstandingFor_le_one (p : Port) (o : Option Outstanding) : outstandingFor p o ≤ 1 := by
  unfold outstandingFor
  split
  · split <;> decide
  · decide

theorem outstandingFor_other {p : Port} {o : Outstanding} (h : p ≠ o.port) : outstandingFor p (some o) = 0 :=
  if_neg fun own => h own.1.symm

/-- R147: the session end of a port makes the outstanding record count for no port that it did not count for. -/
theorem outstandingFor_endSession (p q : Port) (o : Option Outstanding) :
    outstandingFor q (o.map (Outstanding.endSession p)) ≤ outstandingFor q o := by
  cases o with
  | none => exact le_rfl
  | some o =>
    rw [Option.map_some, Outstanding.endSession]
    split
    · have discarded : outstandingFor q (some { o with discarded := true }) = 0 := if_neg fun own => nomatch own.2
      rw [discarded]
      exact Nat.zero_le _
    · exact le_rfl

/-! What holds no more requests -/

/-- No port holds more remote requests after than before. -/
def HoldsNoMore (s t : State) : Prop := ∀ p, t.remoteHeld p ≤ s.remoteHeld p

namespace HoldsNoMore

theorem refl (s : State) : HoldsNoMore s s := fun _ => le_rfl

theorem trans {s t u : State} (a : HoldsNoMore s t) (b : HoldsNoMore t u) : HoldsNoMore s u := fun p => (b p).trans (a p)

theorem foldl {β : Type} {f : State → β → State} (h : ∀ s x, HoldsNoMore s (f s x)) (l : List β) (s : State) :
    HoldsNoMore s (l.foldl f s) := foldl_frame .refl .trans h l s

theorem of_remote {s t : State} (e : t.remote = s.remote) : HoldsNoMore s t := fun p => by
  rw [State.remoteHeld, State.remoteQueue, e]
  exact le_rfl

theorem of_frame {s t : State} (f : FormFrame s t) : HoldsNoMore s t := of_remote f.remote

theorem of_router {s t : State} (f : RouterFrame s t) : HoldsNoMore s t := of_remote f.remote

/-- A queue that gets no longer. -/
theorem setRemoteQueue (s : State) (p : Port) {l : List RemoteRequest} (h : l.length ≤ (s.remoteQueue p).length) :
    HoldsNoMore s (s.setRemoteQueue p l) := fun q => by
  rw [remoteHeld_setRemoteQueue, remoteHeld_eq]
  split
  · next e => rw [e]; omega
  · exact le_rfl

/-- The remote requests of a port fail that have left its queue. -/
theorem failRemotes (s : State) (p : Port) (w : RemoteReason) {l : List RemoteRequest}
    (h : l.length ≤ (s.remoteQueue p).length) (failed : List RemoteRequest) :
    HoldsNoMore s (failed.foldl (State.failRemote p w) (s.setRemoteQueue p l)) :=
  (setRemoteQueue s p h).trans (.of_router (.foldl (failRemote_frame p w) _ _))

theorem remoteLaw {s t : State} (f : HoldsNoMore s t) (h : s.remoteLaw) : t.remoteLaw := fun p => (f p).trans (h p)

end HoldsNoMore

/-! The Remote Access Unit (R141 to R148) -/

/-- R141: the requests at the head that cannot be sent leave. -/
theorem headCheck_holds (s : State) (p : Port) : HoldsNoMore s (s.headCheck p) :=
  .failRemotes s p _ (List.length_dropWhile_le _ _) _

theorem headChecks_holds (s : State) : HoldsNoMore s s.headChecks := .foldl headCheck_holds allPorts s

/-- R142: the request sent moves from the queue to the outstanding record. -/
theorem sendRemote_holds (p : Port) (s : State) : HoldsNoMore s (s.sendRemote p).1 := by
  unfold State.sendRemote
  split
  · next r rest queue =>
    intro q
    rw [remoteHeld_setOutstanding, State.remoteQueue_setRemoteQueue, remoteHeld_eq]
    by_cases own : q = p
    · rw [if_pos own, own, queue, List.length_cons]
      have := outstandingFor_le_one p (some (s.outstandingOf p r))
      omega
    · rw [if_neg own, outstandingFor_other own]
      omega
  · exact .refl s

/-- The outstanding record removed. -/
theorem setOutstanding_none_holds (s : State) : HoldsNoMore s (s.setOutstanding none) := fun _ =>
  Nat.add_le_add_left (Nat.zero_le _) _

/-- R143: a retry moves the request from the outstanding record back to its queue. -/
theorem retryRemote_holds {s : State} {o : Outstanding} (ho : s.remote.outstanding = some o) (kept : o.discarded = false) :
    HoldsNoMore s ((s.setOutstanding none).retryRemote o) := fun q => by
  have counted : outstandingFor o.port (some o) = 1 := if_pos ⟨rfl, kept⟩
  rw [State.retryRemote, remoteHeld_setRemoteQueue, remoteHeld_eq, ho, State.remoteQueue_setOutstanding,
    State.remoteQueue_setOutstanding]
  split
  · next own => rw [own, counted, List.length_cons]; exact le_rfl
  · exact Nat.add_le_add_left (Nat.zero_le _) _

theorem readRemote_holds (a : Arrival) (s : State) : HoldsNoMore s (s.readRemote a) := by
  have removed := setOutstanding_none_holds s
  unfold State.readRemote
  split
  · next o ho =>
    split
    · exact removed
    · next kept =>
      unfold State.answerRemote
      split
      · exact removed.trans (.of_router (remoteResult_frame _ _ _ _))
      · split
        · exact retryRemote_holds ho (by simpa using kept)
        · exact removed.trans (.of_router (remoteResult_frame _ _ _ _))
  · exact .refl s

/-- R145: the requests to lost positions leave their queue. -/
theorem loseRemote_holds (ps : List Nat) (s : State) (p : Port) : HoldsNoMore s (s.loseRemote ps p) :=
  .failRemotes s p _ (List.length_filter_le _ _) _

/-- R147: the queue of the port is emptied and its outstanding request counts no more. -/
theorem endRemote_holds (p : Port) (s : State) : HoldsNoMore s (s.endRemote p) :=
  (HoldsNoMore.setRemoteQueue s p (Nat.zero_le _)).trans fun q => Nat.add_le_add_left (outstandingFor_endSession p q _) _

/-- A Remote Access Unit at its reset values holds nothing. -/
theorem HoldsNoMore.of_reset {s t : State} (e : t.remote = { queues := Tab.fill 4 [], outstanding := none }) :
    HoldsNoMore s t := fun p => by
  rw [State.remoteHeld, State.remoteQueue, e, Tab.get_fill]
  exact Nat.zero_le _

/-! Losses and the trail arrival -/

theorem losePositions_holds (ps : List Nat) (s : State) : HoldsNoMore s (s.losePositions ps) := by
  have reported (s : State) : HoldsNoMore s (s.reportLosses ps) := by
    unfold State.reportLosses
    refine HoldsNoMore.trans (.of_frame ?_) (.foldl (loseRemote_holds ps) _ _)
    exact ((recompute_frame s).toFormFrame.trans (abandonOnLoss_frame ps _).toFormFrame).trans (setFetch_frame _ _)
  unfold State.losePositions
  split
  · exact .refl s
  · refine HoldsNoMore.trans (.of_frame ?_) (reported _)
    exact (setChain_frame s _).toFormFrame.trans (RouterFrame.foldl (fun s p => raise_frame s _) _ _).toFormFrame

theorem breakChain_holds (s : State) : HoldsNoMore s s.breakChain :=
  (HoldsNoMore.of_frame (setChain_frame s _).toFormFrame).trans (losePositions_holds _ _)

theorem settled_holds (m : Meet) {s t : State} (h : HoldsNoMore s t) : HoldsNoMore s (t.settleWork m) :=
  h.trans (.of_frame (settleWork_frame m t))

theorem applyBreak_holds (a : Arrival) (m : Meet) (s : State) : HoldsNoMore s (s.applyBreak a m) := by
  have counted : HoldsNoMore s (s.setChain (s.chain.countShort a.trail.reach)) := .of_remote rfl
  unfold State.applyBreak
  dsimp only
  split
  · exact settled_holds m (counted.trans (breakChain_holds _))
  · exact counted

theorem resyncFailed_holds (p : Nat) (s : State) : HoldsNoMore s (s.resyncFailed p) := by
  unfold State.resyncFailed
  split
  · exact .of_remote rfl
  · exact losePositions_holds _ s

theorem answerResync_holds (p : Nat) (ans : Option Answer) (s : State) : HoldsNoMore s (s.answerResync p ans) := by
  unfold State.answerResync
  split
  · split
    · split
      · exact .of_frame (resyncDone_frame p s).toFormFrame
      · exact resyncFailed_holds p s
    · exact .refl s
  · exact .refl s

theorem answerChain_holds (a : Arrival) (s : State) : HoldsNoMore s (s.answerChain a) := by
  unfold State.answerChain
  split
  · exact .of_frame (answerSeek_frame _ _ s).toFormFrame
  · exact .of_frame (answerExtend_frame _ _ s).toFormFrame
  · exact answerResync_holds _ _ s
  · exact .of_frame (answerProbe_frame _ _ s).toFormFrame
  all_goals exact .refl s

theorem readChain_holds (a : Arrival) (m : Meet) (s : State) : HoldsNoMore s (s.readChain a m) := by
  unfold State.readChain
  refine HoldsNoMore.trans ?_ (answerChain_holds a _)
  refine HoldsNoMore.trans ?_ (.of_frame (readEntries_frame a _).toFormFrame)
  exact (HoldsNoMore.of_remote rfl).trans (applyBreak_holds a m (s.setChain (s.chain.seeTrail a.trail)))

theorem runReader_holds (a : Arrival) (m : Meet) (s : State) (r : Reader) : HoldsNoMore s (s.runReader a m r) := by
  cases r with
  | hop => exact settled_holds m (.of_frame (readHops_frame a s).toFormFrame)
  | chain => exact settled_holds m (readChain_holds a m s)
  | switch => exact settled_holds m (.of_frame (readSwitch_frame a s).toFormFrame)
  | fetch => exact settled_holds m (.of_frame (readFetch_frame a s))
  | remote => exact settled_holds m (readRemote_holds a s)

theorem arrive_holds (up : Option UpPass) (o : TrailOrder) (s : State) : HoldsNoMore s (s.arrive up o) := by
  unfold State.arrive
  split
  · exact (HoldsNoMore.of_remote rfl).trans (.foldl (runReader_holds _ _) _ (s.setCycle (s.cycle.arrived up)))
  · exact .refl s

theorem openCycle_holds (s : State) : HoldsNoMore s s.openCycle := by
  unfold State.openCycle
  split
  · exact .refl s
  · exact (arrive_holds none TrailOrder.default s).trans (.of_remote rfl)

/-! Session ends and the acts of a cycle start -/

theorem settleDraft_remote (p : Port) (s : State) : (s.settleDraft p).remote = s.remote := by
  unfold State.settleDraft
  split
  · rfl
  · exact (discardDraft_frame s p).remote
  · exact (discardDraft_frame (s.dropCommit p) p).remote
  · rfl

theorem endSession_holds (p : Port) (w : EndReason) (s : State) : HoldsNoMore s (s.endSession p w) := by
  unfold State.endSession
  refine HoldsNoMore.trans ?_ (.of_remote rfl)
  exact (HoldsNoMore.of_remote (settleDraft_remote p (s.setPort p ((s.port p).ended w)))).trans (endRemote_holds p _)

theorem expireLease_holds (p : Port) (s : State) : HoldsNoMore s (s.expireLease p) :=
  (endSession_holds p _ s).trans (.of_frame (formIfDue_frame _))

theorem tickLease_holds (p : Port) (s : State) : HoldsNoMore s (s.tickLease p) := by
  rcases tickLease_cases p s with ⟨e, -⟩ | ⟨n, -, -, -, e⟩ | ⟨e, -⟩ <;> rw [e]
  · exact expireLease_holds p s
  · exact .of_remote rfl
  · exact .refl s

theorem fill_holds (c : Option Client) (s : State) : HoldsNoMore s (s.fill c).1 := by
  unfold State.fill
  split
  · exact .refl s
  · exact .of_remote rfl
  · exact .of_frame (sendChain_frame _ s).toFormFrame
  · exact .of_frame (sendFetch_frame s)
  · next p => exact (HoldsNoMore.of_remote rfl).trans (sendRemote_holds p (s.setArbiter { s.arbiter with lastGranted := p }))

theorem grantSlot_holds (s : State) : HoldsNoMore s s.grantSlot := by
  have put (c : Option Client) (m : ControlMsg) (t : State) : HoldsNoMore t (t.putMessage c m) := .of_remote rfl
  exact (((headChecks_holds s).trans (fill_holds _ _)).trans (put _ _ _)).trans (.of_frame (tickBringUp_frame _).toFormFrame)

theorem firstBringUp_remote (s : State) : s.firstBringUp.remote = s.remote := by
  unfold State.firstBringUp
  split <;> rfl

theorem runAct_holds (m : Tab Sample 64) (s : State) (a : CycleAct) : HoldsNoMore s (s.runAct m a) := by
  cases a with
  | lease p => exact tickLease_holds p s
  | switch => exact .of_frame (switchCycle_frame s)
  | probe => exact .of_frame (tickProbe_frame s).toFormFrame
  | slot => exact grantSlot_holds s
  | lead => exact .of_remote (firstBringUp_remote s)

theorem nextCycle_holds (m : Tab Sample 64) (o : List CycleAct) (s : State) : HoldsNoMore s (s.nextCycle m o) := by
  unfold State.nextCycle State.makeActs
  exact ((openCycle_holds s).trans (.foldl (runAct_holds m) _ _)).trans (.of_remote rfl)

theorem actAlone_holds {due : State → Bool} {a : CycleAct} {act : State → State} (h : ∀ s, HoldsNoMore s (act s)) (s : State) :
    HoldsNoMore s (s.actAlone due a act) := by
  unfold State.actAlone
  split
  · exact ((openCycle_holds s).trans (h _)).trans (.of_remote rfl)
  · exact .refl s

/-! The requests -/

/-- An owner of requests that leaves the Remote Access Unit as it is. -/
def LeavesRemote {α : Type} (owner : α → State → State × Response) : Prop := ∀ a s, (owner a s).1.remote = s.remote

theorem takeAttach_remote (p : Port) : LeavesRemote (State.takeAttach p) := fun _ _ => by
  unfold State.takeAttach; split <;> rfl

theorem takeDraftOpen_remote (p : Port) : LeavesRemote (State.takeDraftOpen p) := fun _ _ => by
  unfold State.takeDraftOpen; repeat' split
  all_goals rfl

theorem takeDraftClose_remote (p : Port) : LeavesRemote (State.takeDraftClose p) := fun _ _ => by
  unfold State.takeDraftClose; repeat' split
  all_goals rfl

theorem takeDraftResize_remote (p : Port) : LeavesRemote (State.takeDraftResize p) := fun _ _ => by
  unfold State.takeDraftResize; repeat' split
  all_goals rfl

theorem takeDraftSet_remote (p : Port) : LeavesRemote (State.takeDraftSet p) := fun _ _ => by
  unfold State.takeDraftSet; repeat' split
  all_goals rfl

theorem takeDraftDrop_remote (p : Port) : LeavesRemote (State.takeDraftDrop p) := fun _ s => by
  unfold State.takeDraftDrop
  split
  · rfl
  · split
    · rfl
    · split
      · rfl
      · exact (freeOpened_frame s _).remote

theorem takeDraftClear_remote (p : Port) : LeavesRemote (State.takeDraftClear p) := fun _ s => by
  unfold State.takeDraftClear
  split
  · rfl
  · rfl
  · rfl
  · exact (discardDraft_frame s p).remote

theorem takeDraftView_remote (p : Port) : LeavesRemote (State.takeDraftView p) := fun _ _ => by
  unfold State.takeDraftView; split <;> rfl

theorem takeCommit_remote (p : Port) : LeavesRemote (State.takeCommit p) := fun _ _ => by
  unfold State.takeCommit; repeat' split
  all_goals rfl

theorem takeWithdraw_remote (p : Port) : LeavesRemote (State.takeWithdraw p) := fun _ _ => by
  unfold State.takeWithdraw; split <;> rfl

theorem takeStreamInfo_remote : LeavesRemote State.takeStreamInfo := fun _ _ => by
  unfold State.takeStreamInfo; split <;> rfl

theorem takeListStreams_remote : LeavesRemote State.takeListStreams := fun _ _ => by
  unfold State.takeListStreams; split <;> rfl

theorem takeChainInfo_remote : LeavesRemote State.takeChainInfo := fun _ _ => by
  unfold State.takeChainInfo; repeat' split
  all_goals rfl

theorem takeSubscribe_remote (p : Port) : LeavesRemote (State.takeSubscribe p) := fun _ _ => by
  unfold State.takeSubscribe; split <;> rfl

theorem takeReadQueue_remote (p : Port) : LeavesRemote (State.takeReadQueue p) := fun _ _ => by
  unfold State.takeReadQueue; split <;> rfl

/-- R148: an accepted restart leaves no remote request. -/
theorem takeChainRestart_holds (p : Port) (a : Unit) (s : State) : HoldsNoMore s (s.takeChainRestart p a).1 := by
  unfold State.takeChainRestart
  split
  · exact .refl s
  · split
    · exact .refl s
    · exact .of_reset (restartChain_router p s).remote

/-- R140: a request joins its port's queue only while the port holds fewer than four. -/
theorem takeRemote_remoteLaw (p : Port) (r : Option RemoteRequest) {s : State} (h : s.remoteLaw) :
    (s.takeRemote p r).1.remoteLaw := by
  unfold State.takeRemote
  split
  · exact h
  · split
    · exact h
    · split
      · exact h
      · split
        · exact h
        · next room =>
          intro q
          have held := h q
          rw [remoteHeld_setRemoteQueue]
          rw [remoteHeld_eq] at held room
          split
          · next own => rw [own, List.length_append, List.length_singleton]; omega
          · exact held

theorem requestThen_holds {α : Type} {open? : Bool} {p : Port} {b : Sized α} {owner : α → State → State × Response}
    {after : State → State} (h : ∀ a s, HoldsNoMore s (owner a s).1) (ha : ∀ s, HoldsNoMore s (after s)) (s : State) :
    HoldsNoMore s (s.requestThen open? p b owner after) :=
  requestThen_rel .refl .trans (fun _ _ _ => .of_remote rfl) h ha s

theorem request_holds {α : Type} {open? : Bool} {p : Port} {b : Sized α} {owner : α → State → State × Response}
    (h : LeavesRemote owner) (s : State) : HoldsNoMore s (s.request open? p b owner) :=
  requestThen_holds (fun a s => .of_remote (h a s)) .refl s

theorem refuse_remote (p : Port) (st : Status) (s : State) : (s.refuse p st).remote = s.remote := by
  unfold State.refuse
  split <;> rfl

/-- A request frame for the Remote Access Unit keeps R139. -/
theorem request_remoteLaw {α : Type} {open? : Bool} {p : Port} {b : Sized α} (r : α → Option RemoteRequest) (s : State) :
    s.remoteLaw → (s.request open? p b fun a s => s.takeRemote p (r a)).remoteLaw :=
  requestThen_rel (R := fun s t : State => s.remoteLaw → t.remoteLaw) (fun _ => id) (fun a b => b ∘ a) (fun _ _ _ => id)
    (fun a _ => takeRemote_remoteLaw p (r a)) (fun _ => id) s

/-! Every command -/

/-- Whether a command is REMOTE_READ or REMOTE_WRITE: the rows by which a port can come to hold one more request (R140). -/
def asksRemote : Instr → Bool
  | .remoteRead _ _ => true
  | .remoteWrite _ _ => true
  | _ => false

/-- At every other transaction of a host port no port comes to hold more requests. -/
theorem exec_holds_of_hostPort {c : Instr} {p : Port} (hc : hostPort c = some p) (other : asksRemote c = false) {s t : State}
    (e : exec c s = .next t) : HoldsNoMore s t := by
  have released {f : State → State} (h : ∀ s, HoldsNoMore s (f s)) (e : s.whenReleased f = .next t) : HoldsNoMore s t :=
    whenReleased_keeps .refl h e
  have formed (s : State) : HoldsNoMore s s.formIfDue := .of_frame (formIfDue_frame s)
  cases c <;> cases hc
  case remoteRead | remoteWrite => cases other
  case frameError => exact released (fun s => .of_remote (refuse_remote _ _ s)) e
  case badRequest => exact released (fun s => .of_remote (refuse_remote _ _ s)) e
  case responseRead => exact released (fun s => .of_remote (State.setPort_remote s _ _)) e
  case attach => exact released (request_holds (takeAttach_remote _)) e
  case detach => exact released (requestThen_holds (fun _ => endSession_holds _ .detach) formed) e
  case portStatus => exact released (request_holds fun _ _ => rfl) e
  case draftOpen => exact released (request_holds (takeDraftOpen_remote _)) e
  case draftClose => exact released (request_holds (takeDraftClose_remote _)) e
  case draftResize => exact released (request_holds (takeDraftResize_remote _)) e
  case draftSet => exact released (request_holds (takeDraftSet_remote _)) e
  case draftDrop => exact released (request_holds (takeDraftDrop_remote _)) e
  case draftClear => exact released (request_holds (takeDraftClear_remote _)) e
  case draftView => exact released (request_holds (takeDraftView_remote _)) e
  case commit => exact released (requestThen_holds (fun a s => .of_remote (takeCommit_remote _ a s)) formed) e
  case withdraw => exact released (request_holds (takeWithdraw_remote _)) e
  case streamInfo => exact released (request_holds takeStreamInfo_remote) e
  case listStreams => exact released (request_holds takeListStreams_remote) e
  case planInfo => exact released (request_holds fun _ _ => rfl) e
  case chainInfo => exact released (request_holds takeChainInfo_remote) e
  case chainRestart => exact released (requestThen_holds (takeChainRestart_holds _) .refl) e
  case subscribe => exact released (request_holds (takeSubscribe_remote _)) e
  case readQueue => exact released (request_holds (takeReadQueue_remote _)) e

/-- Only REMOTE_READ and REMOTE_WRITE make a port hold more requests. -/
theorem exec_holds {c : Instr} (other : asksRemote c = false) {s t : State} (e : exec c s = .next t) : HoldsNoMore s t := by
  have released {f : State → State} (h : ∀ s, HoldsNoMore s (f s)) (e : s.whenReleased f = .next t) : HoldsNoMore s t :=
    whenReleased_keeps .refl h e
  have guarded {c : State → Bool} {f : State → State} (h : ∀ s, HoldsNoMore s (f s))
      (e : s.whenReleased (State.underGuard c f) = .next t) : HoldsNoMore s t := released (underGuard_keeps .refl h) e
  cases c
  case remoteRead | remoteWrite => cases other
  case deviceReset => cases e; exact .of_reset rfl
  case resetRelease => cases e; exact .of_remote rfl
  case cycleStart m o => exact released (nextCycle_holds m o) e
  case trailArrival up o => exact released (arrive_holds (some up) o) e
  case receiveWindowClose o => exact released (arrive_holds none o) e
  case leaseExpiry p => exact released (actAlone_holds (expireLease_holds p)) e
  case probeDue => exact released (actAlone_holds fun s => .of_frame (tickProbe_frame s).toFormFrame) e
  case bringupSeek => exact released (actAlone_holds grantSlot_holds) e
  case switchCycle => exact released (actAlone_holds fun s => .of_frame (switchCycle_frame s)) e
  case batchFormation => exact released (fun s => .of_frame (formIfDue_frame s)) e
  case isolationRecovery p => exact guarded (fun s => settled_holds _ (.of_frame (recoverHop_frame p s).toFormFrame)) e
  case breakDetected m => exact guarded (fun s => settled_holds m (breakChain_holds s)) e
  case quietCountComplete p => exact guarded (fun s => .of_frame (leaveJoining_frame p s).toFormFrame) e
  case resyncEntry => exact guarded (fun s => .of_frame ((moveEntries_frame s).trans (ensureResync_frame _)).toFormFrame) e
  case prepareTimeout m => exact guarded (fun s => settled_holds m (.of_frame (abandon_frame _ s).toFormFrame)) e
  case settleEnd m => exact guarded (fun s => settled_holds m (.of_frame (settleEnd_frame s).toFormFrame)) e
  all_goals exact exec_holds_of_hostPort rfl rfl e

/-- R139 at every command. -/
theorem exec_remoteLaw (c : Instr) {s t : State} (e : exec c s = .next t) (h : s.remoteLaw) : t.remoteLaw := by
  have asked {f : State → State} (kept : ∀ s, s.remoteLaw → (f s).remoteLaw) (e : s.whenReleased f = .next t) : t.remoteLaw :=
    whenReleased_keeps (R := fun s t : State => s.remoteLaw → t.remoteLaw) (fun _ => id) kept e h
  cases c
  case remoteRead => exact asked (request_remoteLaw readOf) e
  case remoteWrite => exact asked (request_remoteLaw writeOf) e
  all_goals exact (exec_holds rfl e).remoteLaw h

/-- Settles O60: sending and retrying move a request between its queue and the outstanding record, REMOTE_READ and REMOTE_WRITE
add one to a port with room (`takeRemote_remoteLaw`), and nothing else adds one (`exec_holds`). -/
theorem remoteHoldingKept : Obligations.RemoteHoldingKept := by
  unfold Obligations.RemoteHoldingKept
  intro s t hs e
  unfold step at e
  split at e
  · cases e; exact hs
  · exact exec_remoteLaw _ e hs

end Sys2Proof.Machine


/-! ### Remote requests are checked and queued (R140) -/

namespace Sys2Proof.Machine

theorem isReady_iff (c : ChainManager) (q : Nat) : c.isReady q = true ↔ (c.entry q).state = .ready := beq_iff_eq

/-- A position that is READY is the position of an endpoint. -/
theorem mem_positions_of_ready {c : ChainManager} {q : Nat} (h : (c.entry q).state = .ready) : q ∈ positions := by
  unfold ChainManager.entry at h
  split at h
  · next inside => exact List.mem_range'_1.2 (by omega)
  · cases h

/-- R140 check 3 for one position. -/
theorem targetReady_position {c : ChainManager} {r : RemoteRequest} {q : Nat} (h : r.target = some q) :
    c.targetReady r = true ↔ (c.entry q).state = .ready := by
  rw [ChainManager.targetReady, h]
  exact isReady_iff c q

/-- R140 check 3 for ALL. -/
theorem targetReady_all {c : ChainManager} {r : RemoteRequest} (h : r.target = none) :
    c.targetReady r = true ↔ ∃ q, (c.entry q).state = .ready := by
  have some_ready : c.targetReady r = true ↔ ∃ q ∈ positions, c.isReady q = true := by
    rw [ChainManager.targetReady, h]
    simp [ChainManager.readyPositions]
  rw [some_ready]
  exact ⟨fun ⟨q, _, ready⟩ => ⟨q, (isReady_iff c q).1 ready⟩,
    fun ⟨q, ready⟩ => ⟨q, mem_positions_of_ready ready, (isReady_iff c q).2 ready⟩⟩

/-! The checks in order (R140) -/

section
variable {s : State} {p : Port} {r : RemoteRequest}

theorem takeRemote_protected (window : r.touchesWindow = true) : s.takeRemote p (some r) = (s, reply .writeProtected) :=
  if_pos window

variable (outside : r.touchesWindow = false)
include outside

theorem takeRemote_unready (unready : ¬ s.chain.targetReady r = true) :
    s.takeRemote p (some r) = (s, reply .targetUnreachable) := by
  simp [State.takeRemote, outside, unready]

variable (ready : s.chain.targetReady r = true)
include ready

theorem takeRemote_full (full : 4 ≤ s.remoteHeld p) : s.takeRemote p (some r) = (s, reply .queueFull) := by
  simp [State.takeRemote, outside, ready, full]

theorem takeRemote_queued (room : s.remoteHeld p < 4) :
    s.takeRemote p (some r)
      = (s.setRemoteQueue p (s.remoteQueue p ++ [{ r with session := (s.port p).session }]), reply .accepted) := by
  simp [State.takeRemote, outside, ready, Nat.not_le.2 room]

end

/-! The request a body asks for (R140 check 1) -/

/-- The read that a body in range asks for. -/
def readRequest (a : ReadArgs) : RemoteRequest :=
  { kind := .read, target := some a.target.toNat, address := a.address.toNat, length := a.length.toNat, data := []
    tag := a.tag, session := 0, retries := 0 }

theorem readOf_in_range {a : ReadArgs} (h1 : 1 ≤ a.target.toNat) (h15 : a.target.toNat ≤ 15) (l1 : 1 ≤ a.length.toNat)
    (l4 : a.length.toNat ≤ 4) (last : a.address.toNat + a.length.toNat ≤ 256) : readOf a = some (readRequest a) :=
  if_pos ⟨h1, h15, l1, l4, last⟩

/-- R140 check 2 is about writes. -/
theorem readRequest_outside (a : ReadArgs) : (readRequest a).touchesWindow = false := rfl

/-- The write that a body in range asks for. -/
def writeRequest (w : WriteArgs) : RemoteRequest :=
  { kind := if w.target = 0xFF#8 then .writeAll else .write
    target := if w.target = 0xFF#8 then none else some w.target.toNat
    address := w.address.toNat, length := w.length.toNat, data := w.data, tag := w.tag, session := 0, retries := 0 }

theorem writeOf_in_range {w : WriteArgs} (target : (1 ≤ w.target.toNat ∧ w.target.toNat ≤ 15) ∨ w.target = 0xFF#8)
    (l1 : 1 ≤ w.length.toNat) (l4 : w.length.toNat ≤ 4) (last : w.address.toNat + w.length.toNat ≤ 256)
    (data : w.data.length = w.length.toNat) : writeOf w = some (writeRequest w) :=
  if_pos ⟨target.symm, l1, l4, last, data⟩

/-- ALL is no position. -/
theorem ne_all_of_position {b : Byte} (h : b.toNat ≤ 15) : b ≠ 0xFF#8 := by
  rintro rfl
  exact absurd h (by decide)

theorem writeRequest_position {w : WriteArgs} (h : w.target.toNat ≤ 15) :
    writeRequest w = { kind := .write, target := some w.target.toNat, address := w.address.toNat, length := w.length.toNat,
                       data := w.data, tag := w.tag, session := 0, retries := 0 } := by
  rw [writeRequest, if_neg (ne_all_of_position h), if_neg (ne_all_of_position h)]

theorem writeRequest_all {w : WriteArgs} (h : w.target = 0xFF#8) :
    writeRequest w = { kind := .writeAll, target := none, address := w.address.toNat, length := w.length.toNat,
                       data := w.data, tag := w.tag, session := 0, retries := 0 } := by
  rw [writeRequest, if_pos h, if_pos h]

/-- R140 check 2: a write touches the map window when it ends beyond DFh. -/
theorem writeRequest_touchesWindow {w : WriteArgs} (l1 : 1 ≤ w.length.toNat) :
    (writeRequest w).touchesWindow = decide (0xE0 < w.address.toNat + w.length.toNat) := by
  have write : ((writeRequest w).kind != .read) = true := by
    unfold writeRequest
    split <;> rfl
  rw [RemoteRequest.touchesWindow, write, Bool.true_and]
  refine decide_eq_decide.2 ?_
  show 0xE0 ≤ w.address.toNat + w.length.toNat - 1 ↔ _
  omega

theorem writeRequest_ready_position {c : ChainManager} {w : WriteArgs} (h : w.target.toNat ≤ 15) :
    c.targetReady (writeRequest w) = true ↔ (c.entry w.target.toNat).state = .ready :=
  targetReady_position (by rw [writeRequest_position h])

theorem writeRequest_ready_all {c : ChainManager} {w : WriteArgs} (h : w.target = 0xFF#8) :
    c.targetReady (writeRequest w) = true ↔ ∃ q, (c.entry q).state = .ready :=
  targetReady_all (by rw [writeRequest_all h])

/-! The two rows -/

section
variable {α : Type} {given : α → Option RemoteRequest} {s : State} {p : Port} {a : α} {r : Option RemoteRequest}
  (hs : s.serves p) (asked : given a = r)
include hs asked

theorem requestRemote_refused {st : Status} (answer : s.takeRemote p r = (s, reply st)) (refusal : st.accepts = false) :
    s.whenReleased (State.request false p (.sized a) fun a s => s.takeRemote p (given a)) = .next (s.refused p st) :=
  requestThen_refused false p a _ id s st hs (by rw [asked, answer]) refusal

theorem requestRemote_accepted {t : State} (answer : s.takeRemote p r = (t, reply .accepted)) :
    s.whenReleased (State.request false p (.sized a) fun a s => s.takeRemote p (given a))
      = .next (t.accepted p (reply .accepted)) :=
  requestThen_accepted false p a _ id s t _ hs (by rw [asked, answer]) rfl

end

/-- Settles O29: checks 2 to 4 of R140 one after the other, for the read and for the write. -/
theorem remoteRequestsAreQueued : Obligations.RemoteRequestsAreQueued := by
  unfold Obligations.RemoteRequestsAreQueued
  intro p a w s hs
  refine ⟨fun h1 h15 l1 l4 last => ?_, fun target l1 l4 last data => ?_⟩
  · have asked := readOf_in_range h1 h15 l1 l4 last
    have out := readRequest_outside a
    have ready : s.chain.targetReady (readRequest a) = true ↔ (s.entry a.target.toNat).state = .ready := targetReady_position rfl
    exact ⟨fun unready => requestRemote_refused hs asked (takeRemote_unready out (unready ∘ ready.1)) rfl,
      fun isReady full => requestRemote_refused hs asked (takeRemote_full out (ready.2 isReady) full) rfl,
      fun isReady room => requestRemote_accepted hs asked (takeRemote_queued out (ready.2 isReady) room)⟩
  · have asked := writeOf_in_range target l1 l4 last data
    have window := writeRequest_touchesWindow (w := w) l1
    have out (below : w.address.toNat + w.length.toNat ≤ 0xE0) : (writeRequest w).touchesWindow = false := by
      rw [window]; exact decide_eq_false (Nat.not_lt.2 below)
    refine ⟨fun above => ?_, fun below one unready => ?_, fun below all unready => ?_, fun below isReady full => ?_,
      fun below one isReady room => ?_, fun below all isReady room => ?_⟩
    · exact requestRemote_refused hs asked (takeRemote_protected (window.trans (decide_eq_true above))) rfl
    · exact requestRemote_refused hs asked (takeRemote_unready (out below) (unready ∘ (writeRequest_ready_position one).1)) rfl
    · exact requestRemote_refused hs asked
        (takeRemote_unready (out below) fun ready => ((writeRequest_ready_all all).1 ready).elim unready) rfl
    · have ready : s.chain.targetReady (writeRequest w) = true :=
        isReady.elim (fun h => (writeRequest_ready_position h.1).2 h.2) fun h => (writeRequest_ready_all h.1).2 h.2
      exact requestRemote_refused hs asked (takeRemote_full (out below) ready full) rfl
    · have queued := requestRemote_accepted hs asked
        (takeRemote_queued (out below) ((writeRequest_ready_position one).2 isReady) room)
      rw [writeRequest_position one] at queued
      exact queued
    · have queued := requestRemote_accepted hs asked (takeRemote_queued (out below) ((writeRequest_ready_all all).2 isReady) room)
      rw [writeRequest_all all] at queued
      exact queued

end Sys2Proof.Machine


/-! ### The answers of remote requests and of event fetch (R143, R144, R151) -/

namespace Sys2Proof.Machine

/-! What an attempt comes to (R143, R144) -/

/-- R144: control-seen from every expected position. -/
theorem seenCount_eq_length_iff (t : Trail) (expected : List Nat) :
    seenCount t expected = expected.length ↔ ∀ q ∈ expected, ∃ f, t.valid q = some f ∧ f.controlSeen = true := by
  unfold seenCount
  rw [List.countP_eq_length]
  refine forall₂_congr fun q _ => ?_
  cases t.valid q <;> simp

section
variable {a : Arrival} {o : Outstanding}

theorem success_read {ans : Answer} (kind : o.request.kind = .read) (answer : a.answerFor (.host o.port) = some ans) :
    o.success a = some (.remoteDone o.request.tag (some (ans.payload.take o.request.length))) := by
  simp only [Outstanding.success, kind, answer]

theorem success_write {ans : Answer} (kind : o.request.kind = .write) (answer : a.answerFor (.host o.port) = some ans) :
    o.success a = some (.remoteDone o.request.tag none) := by
  simp only [Outstanding.success, kind, answer]

theorem success_unanswered (kind : o.request.kind ≠ .writeAll) (answer : a.answerFor (.host o.port) = none) :
    o.success a = none := by
  cases h : o.request.kind
  case writeAll => exact absurd h kind
  all_goals simp only [Outstanding.success, h, answer]

theorem success_writeAll (kind : o.request.kind = .writeAll) :
    o.success a = if seenCount a.trail o.expected = o.expected.length then some (.remoteDone o.request.tag none) else none := by
  simp only [Outstanding.success, kind]

theorem exhausted_single (kind : o.request.kind ≠ .writeAll) : o.exhausted a = .remoteFailed o.request.tag .noAnswer := by
  cases h : o.request.kind
  case writeAll => exact absurd h kind
  all_goals simp only [Outstanding.exhausted, h]

theorem exhausted_writeAll (kind : o.request.kind = .writeAll) :
    o.exhausted a = .remotePartial o.request.tag (seenCount a.trail o.expected) := by
  simp only [Outstanding.exhausted, kind]

/-! The outstanding request at its trail arrival (R143) -/

variable {s : State} (ho : s.remote.outstanding = some o)
include ho

theorem readRemote_discarded (discarded : o.discarded = true) : s.readRemote a = s.setOutstanding none := by
  simp only [State.readRemote, ho, discarded, if_true]

variable (kept : o.discarded = false)
include kept

theorem readRemote_kept : s.readRemote a = (s.setOutstanding none).answerRemote a o := by
  simp only [State.readRemote, ho, kept, Bool.false_eq_true, if_false]

theorem readRemote_done {n : Notice} (done : o.success a = some n) :
    s.readRemote a = (s.setOutstanding none).notifySession o.port o.request.session n := by
  rw [readRemote_kept ho kept, State.answerRemote, done]
  rfl

/-- R143: a failed attempt is retried below the limit, and ends the request at it. -/
theorem readRemote_undone (undone : o.success a = none) :
    s.readRemote a =
      if o.request.retries < s.switch.settings.retryLimit then
        (s.setOutstanding none).setRemoteQueue o.port
          ({ o.request with retries := o.request.retries + 1 } :: s.remoteQueue o.port)
      else (s.setOutstanding none).notifySession o.port o.request.session (o.exhausted a) := by
  rw [readRemote_kept ho kept, State.answerRemote, undone]
  rfl

end

/-- Settles O37: the success of the attempt for each kind of request, then what follows from it (`readRemote_done`,
`readRemote_undone`). -/
theorem remoteAnswersAreTaken : Obligations.RemoteAnswersAreTaken := by
  unfold Obligations.RemoteAnswersAreTaken
  rintro a o s u ho rfl
  refine ⟨readRemote_discarded ho, fun kept kind ans answer => ?_, fun kept kind answered => ?_, fun kept kind unanswered => ?_,
    fun kept kind => ?_⟩
  · exact readRemote_done ho kept (success_read kind answer)
  · obtain ⟨ans, answer⟩ := Option.ne_none_iff_exists'.1 answered
    exact readRemote_done ho kept (success_write kind answer)
  · rw [readRemote_undone ho kept (success_unanswered kind unanswered), exhausted_single kind]
  · have success := success_writeAll (a := a) kind
    rw [← exhausted_writeAll (a := a) kind]
    split
    · next seen =>
      exact readRemote_done ho kept (success.trans (if_pos ((seenCount_eq_length_iff _ _).2 seen)))
    · next unseen =>
      exact readRemote_undone ho kept (success.trans (if_neg (unseen ∘ (seenCount_eq_length_iff _ _).1)))

/-! The answer to an EVENT_TAKE (R151) -/

section
variable {a : Arrival} {p : Nat} {s : State} (hp : s.fetch.outstanding = some p)
include hp

theorem answerFetch_eq :
    s.answerFetch a = (s.setFetch { s.fetch with outstanding := none }).takeEvent p (a.answerFor .fetch) := by
  simp only [State.answerFetch, hp]

/-- R151: an answer takes the position out of the fetch-wanted set, and gives at most one event besides. -/
theorem answerFetch_answered {ans : Answer} (answer : a.answerFor .fetch = some ans) :
    s.answerFetch a = (s.setFetch { s.fetch with outstanding := none, wanted := s.fetch.wanted.filter fun q => q != p }).raise?
      (if ans.result = .ok then eventOf p ans.payload else none) := by
  rw [answerFetch_eq hp, answer]
  simp only [State.takeEvent]
  split
  · cases eventOf p ans.payload <;> rfl
  · rfl

end

/-- Settles O38: without an answer, or with one (`answerFetch_answered`), whose event only the Router takes. -/
theorem fetchAnswersAreTaken : Obligations.FetchAnswersAreTaken := by
  unfold Obligations.FetchAnswersAreTaken
  intro a p s hp
  refine ⟨fun unanswered => ?_, fun ans answer => ?_⟩
  · rw [answerFetch_eq hp, unanswered]
    rfl
  · rw [answerFetch_answered hp answer]
    refine ⟨(raise?_frame _ _).fetch, fun noEvent => ?_, fun code d1 d0 rest event payload => ?_⟩
    · rw [if_neg noEvent]
      rfl
    · rw [if_pos event, payload]
      rfl

end Sys2Proof.Machine


/-! ### Where an event and a notice go in one port queue (R159 to R161) -/

namespace Sys2Proof.Machine

/-! The queue without its newest event (R160) -/

/-- R160: the newest event is the one no event comes after. -/
theorem dropNewestEvent_append {newest : QueueEntry} (event : newest.isEvent = true) (before : List QueueEntry)
    {after : List QueueEntry} (last : ∀ x ∈ after, x.isEvent = false) :
    dropNewestEvent (before ++ newest :: after) = before ++ after := by
  have skip : ∀ x ∈ after.reverse, ¬ x.isEvent = true := fun x hx => by simp [last x (List.mem_reverse.1 hx)]
  rw [dropNewestEvent, List.reverse_append, List.reverse_cons, List.append_assoc, List.eraseP_append_right _ skip,
    List.singleton_append, List.eraseP_cons_of_pos event, List.reverse_append, List.reverse_reverse, List.reverse_reverse]

/-- A queue that holds an event has a newest one. -/
theorem exists_newest_event {q : List QueueEntry} (h : eventCount q ≠ 0) :
    ∃ before newest after, q = before ++ newest :: after ∧ newest.isEvent = true ∧ ∀ x ∈ after, x.isEvent = false := by
  obtain ⟨x, hx, event⟩ := List.countP_pos_iff.1 (Nat.pos_of_ne_zero h)
  obtain ⟨newest, after, before, skip, hn, split, -⟩ := List.exists_of_eraseP (List.mem_reverse.2 hx) event
  refine ⟨before.reverse, newest, after.reverse, ?_, hn, fun y hy => by simpa using skip y (List.mem_reverse.1 hy)⟩
  simpa using congrArg List.reverse split

theorem eventCount_append (q l : List QueueEntry) : eventCount (q ++ l) = eventCount q + eventCount l := List.countP_append

theorem eventCount_cons (e : QueueEntry) (q : List QueueEntry) :
    eventCount (e :: q) = eventCount q + if e.isEvent = true then 1 else 0 := List.countP_cons

theorem eventCount_eq_zero_iff {q : List QueueEntry} : eventCount q = 0 ↔ ∀ x ∈ q, x.isEvent = false := by
  simp [eventCount, List.countP_eq_zero]

/-! An arriving entry, case by case (R159, R160) -/

section
variable {r : RouterPort} (e : QueueEntry)

theorem putEvent_of_room (events : eventCount r.queue < 12) (room : r.queue.length < 16) :
    r.putEvent e = { r with queue := r.queue ++ [e], attention := true } :=
  if_neg (by unfold Config.eventCap Config.queueSize; omega)

theorem putEvent_of_full (full : 12 ≤ eventCount r.queue ∨ 16 ≤ r.queue.length) :
    r.putEvent e = { r with lost := lostUp r.lost } := if_pos full

theorem putNotice_of_room (room : r.queue.length < 16) :
    r.putNotice e = { r with queue := r.queue ++ [e], attention := true } := if_pos room

theorem putNotice_of_notices (full : 16 ≤ r.queue.length) (notices : eventCount r.queue = 0) :
    r.putNotice e = { r with noticeLoss := true } :=
  (if_neg (Nat.not_lt.2 full)).trans (if_pos notices)

theorem putNotice_of_newest (full : 16 ≤ r.queue.length) {before after : List QueueEntry} {newest : QueueEntry}
    (split : r.queue = before ++ newest :: after) (event : newest.isEvent = true) (last : ∀ x ∈ after, x.isEvent = false) :
    r.putNotice e = { r with queue := before ++ after ++ [e], lost := lostUp r.lost } := by
  have held : eventCount r.queue ≠ 0 := fun noEvent => by
    have := eventCount_eq_zero_iff.1 noEvent newest (split ▸ List.mem_append_right _ List.mem_cons_self)
    rw [event] at this
    cases this
  rw [RouterPort.putNotice, if_neg (Nat.not_lt.2 full), if_neg held, split, dropNewestEvent_append event before last]

end

/-- Settles O32: with room in both counts the event is appended, else it is dropped and counted; neither branch touches the
notice-loss flag or the subscriptions. -/
theorem eventPlacement : Obligations.EventPlacement := by
  unfold Obligations.EventPlacement
  intro e r _
  refine ⟨fun room events => ?_, fun full => ?_, ?_⟩
  · rw [putEvent_of_room e events room]
    exact ⟨rfl, rfl⟩
  · rw [putEvent_of_full e full]
    exact ⟨rfl, rfl, rfl⟩
  · by_cases full : 12 ≤ eventCount r.queue ∨ 16 ≤ r.queue.length
    · rw [putEvent_of_full e full]
      exact ⟨rfl, rfl⟩
    · rw [putEvent_of_room e (by omega) (by omega)]
      exact ⟨rfl, rfl⟩

/-- Settles O33: room, a newest event to displace (`dropNewestEvent_append`), or notices only. -/
theorem noticePlacement : Obligations.NoticePlacement := by
  unfold Obligations.NoticePlacement
  intro e r _
  refine ⟨fun room => ?_, fun before newest after full split event last => ?_, fun full notices => ?_⟩
  · rw [putNotice_of_room e room]
    exact ⟨rfl, rfl, rfl⟩
  · rw [putNotice_of_newest e full.ge split event last]
    exact ⟨rfl, rfl, rfl⟩
  · rw [putNotice_of_notices e full.ge (eventCount_eq_zero_iff.2 notices)]
    exact ⟨rfl, rfl, rfl, rfl⟩

end Sys2Proof.Machine


/-! ### SUBSCRIBE and READ_QUEUE (R162, R164) -/

namespace Sys2Proof.Machine

/-- Settles O30: the position field decides; the new table differs from the old at that position only. -/
theorem subscribeReplacesSet : Obligations.SubscribeReplacesSet := by
  unfold Obligations.SubscribeReplacesSet
  intro p a s hs
  refine ⟨fun above => ?_, fun within => ?_⟩
  · exact requestThen_refused false p a (State.takeSubscribe p) id s _ hs
      (by simp only [State.takeSubscribe, positionOf_eq_none above]) rfl
  · refine ⟨_, requestThen_accepted false p a (State.takeSubscribe p) id s _ _ hs
      (by simp only [State.takeSubscribe, positionOf_eq_some within]; rfl) rfl, fun q => ?_⟩
    rw [Tab.get_set]
    exact if_congr Fin.ext_iff rfl rfl

theorem countOf_eq_some {b : Byte} (h1 : 1 ≤ b.toNat) (h4 : b.toNat ≤ 4) : countOf b = some b.toNat := if_pos ⟨h1, h4⟩

theorem countOf_eq_none {b : Byte} (h : b.toNat = 0 ∨ 5 ≤ b.toNat) : countOf b = none := if_neg (by omega)

/-- R165: a read of n entries empties the queue unless it holds more than n. -/
theorem isEmpty_drop (q : List QueueEntry) (n : Nat) : (q.drop n).isEmpty = decide (q.length ≤ n) := by
  rw [Bool.eq_iff_iff, List.isEmpty_iff, List.drop_eq_nil_iff, decide_eq_true_iff]

theorem read_eq (n : Nat) (r : RouterPort) :
    r.read n = { r with
      queue := r.queue.drop n, lost := 0, noticeLoss := false
      attention := r.attention && decide (n < r.queue.length) } := by
  rw [RouterPort.read, isEmpty_drop, ← decide_not]
  simp only [Nat.not_le]

/-- Settles O31: the count field decides; an accepted read is `read_eq` with the entries, the count and the flag it took. -/
theorem readQueueTakesOldest : Obligations.ReadQueueTakesOldest := by
  unfold Obligations.ReadQueueTakesOldest
  intro p b s hs
  refine ⟨fun out => ?_, fun h1 h4 => ?_⟩
  · exact requestThen_refused false p b (State.takeReadQueue p) id s _ hs
      (by simp only [State.takeReadQueue, countOf_eq_none out]) rfl
  · exact requestThen_accepted false p b (State.takeReadQueue p) id s _ _ hs
      (by simp only [State.takeReadQueue, countOf_eq_some h1 h4, read_eq, List.length_drop]) rfl

end Sys2Proof.Machine


/-! ### The port queues stay bounded, operation by operation (R154, R161, R165) -/

namespace Sys2Proof.Machine

/-! One port -/

/-- What the laws of the port queues say of one port; `attached` is whether it is ATTACHED. -/
structure RouterPort.Lawful (attached : Bool) (r : RouterPort) : Prop where
  bounded : r.bounded
  line : r.attention = (attached && !r.queue.isEmpty)
  empty : attached = false → r.queue = []

theorem queueLaws_iff (s : State) :
    s.routerLaw ∧ s.attentionLaw ↔ ∀ p, (s.routerPort p).Lawful (s.attached p) :=
  ⟨fun ⟨bounded, attention⟩ p => ⟨bounded p, (attention p).1, (attention p).2⟩,
    fun h => ⟨fun p => (h p).bounded, fun p => ⟨(h p).line, (h p).empty⟩⟩⟩

theorem lostUp_le (n : Nat) : lostUp n ≤ Config.lostMax := Nat.min_le_left _ _

namespace RouterPort.Lawful

variable {attached : Bool} {r : RouterPort}

/-- R167: the values at a session end suit a port in either state. -/
theorem reset (attached : Bool) : RouterPort.reset.Lawful attached :=
  ⟨⟨Nat.zero_le _, Nat.zero_le _, Nat.zero_le _⟩, (Bool.and_false _).symm, fun _ => rfl⟩

/-- R165: a queue that holds an entry is that of an ATTACHED port, its attention line asserted. -/
theorem asserted {q : List QueueEntry} {e : QueueEntry} {lost : Nat} (length : (q ++ [e]).length ≤ 16)
    (events : eventCount (q ++ [e]) ≤ 12) (counter : lost ≤ 255) :
    { r with queue := q ++ [e], lost := lost, attention := true : RouterPort }.Lawful true :=
  ⟨⟨length, events, counter⟩, by simp, nofun⟩

/-- R159. -/
theorem putEvent (h : r.Lawful true) (e : QueueEntry) : (r.putEvent e).Lawful true := by
  obtain ⟨length, events, counter⟩ := h.bounded
  by_cases full : 12 ≤ eventCount r.queue ∨ 16 ≤ r.queue.length
  · rw [putEvent_of_full e full]
    exact ⟨⟨length, events, lostUp_le _⟩, h.line, nofun⟩
  · rw [putEvent_of_room e (by omega) (by omega)]
    have one : eventCount [e] ≤ 1 := List.countP_le_length
    refine asserted ?_ ?_ counter
    · rw [List.length_append, List.length_singleton]; omega
    · rw [eventCount_append]; omega

/-- R160: a notice takes the place of an event, or one of those left. -/
theorem putNotice (h : r.Lawful true) {e : QueueEntry} (notice : e.isEvent = false) : (r.putNotice e).Lawful true := by
  obtain ⟨length, events, counter⟩ := h.bounded
  have uncounted : eventCount [e] = 0 := eventCount_eq_zero_iff.2 fun x hx => List.mem_singleton.1 hx ▸ notice
  by_cases room : r.queue.length < 16
  · rw [putNotice_of_room e room]
    refine asserted ?_ ?_ counter
    · rw [List.length_append, List.length_singleton]; omega
    · rw [eventCount_append, uncounted]; exact events
  · by_cases notices : eventCount r.queue = 0
    · rw [putNotice_of_notices e (by omega) notices]
      exact ⟨⟨length, events, counter⟩, h.line, nofun⟩
    · obtain ⟨before, newest, after, split, event, last⟩ := exists_newest_event notices
      have on : r.attention = true := by rw [h.line, split]; simp
      rw [putNotice_of_newest e (by omega) split event last, on]
      rw [split, List.length_append, List.length_cons] at length
      rw [split, eventCount_append, eventCount_cons] at events
      refine asserted ?_ ?_ (lostUp_le _)
      · rw [List.length_append, List.length_append, List.length_singleton]
        unfold Config.queueSize at length
        omega
      · rw [eventCount_append, eventCount_append, uncounted]
        unfold Config.eventCap at events
        omega

/-- R162. -/
theorem read (h : r.Lawful attached) (n : Nat) : (r.read n).Lawful attached := by
  obtain ⟨length, events, -⟩ := h.bounded
  have fewer : (r.queue.drop n).Sublist r.queue := List.drop_sublist n _
  refine ⟨⟨fewer.length_le.trans length, (fewer.countP_le).trans events, Nat.zero_le _⟩, ?_, fun off => ?_⟩
  · show (r.attention && !(r.queue.drop n).isEmpty) = (attached && !(r.queue.drop n).isEmpty)
    rw [h.line]
    cases r.queue <;> simp
  · show r.queue.drop n = []
    rw [h.empty off, List.drop_nil]

/-- R164: the subscriptions are no part of the queue. -/
theorem subscribe (h : r.Lawful attached) (subs : Tab Byte 16) : { r with subscriptions := subs }.Lawful attached :=
  ⟨h.bounded, h.line, h.empty⟩

/-- R169: the queue of a port that attaches is empty. -/
theorem attach (h : r.Lawful false) : r.Lawful true :=
  ⟨h.bounded, by rw [h.line, h.empty rfl]; rfl, nofun⟩

end RouterPort.Lawful

/-! Every port -/

/-- Each port whose queue is lawful before has a lawful queue after. -/
def QueuesKept (s t : State) : Prop :=
  ∀ p, (s.routerPort p).Lawful (s.attached p) → (t.routerPort p).Lawful (t.attached p)

namespace QueuesKept

theorem refl (s : State) : QueuesKept s s := fun _ => id

theorem trans {s t u : State} (a : QueuesKept s t) (b : QueuesKept t u) : QueuesKept s u := fun p h => b p (a p h)

theorem foldl {β : Type} {f : State → β → State} (h : ∀ s x, QueuesKept s (f s x)) (l : List β) (s : State) :
    QueuesKept s (l.foldl f s) := foldl_frame .refl .trans h l s

/-- A change that reaches neither the Router nor the ports. -/
theorem of_eq {s t : State} (router : t.router = s.router) (ports : t.ports = s.ports) : QueuesKept s t := fun p h => by
  rw [State.routerPort, State.attached, State.port, router, ports]
  exact h

/-- Such a change, then another. -/
theorem after {s t u : State} (b : QueuesKept t u) (router : t.router = s.router)
    (ports : t.ports = s.ports) : QueuesKept s u := (of_eq router ports).trans b

/-- A change, then one that reaches neither. -/
theorem andThen {s t u : State} (a : QueuesKept s t) (router : u.router = t.router)
    (ports : u.ports = t.ports) : QueuesKept s u := a.trans (of_eq router ports)

theorem setRouter (s : State) {p : Port} {r : RouterPort}
    (h : (s.routerPort p).Lawful (s.attached p) → r.Lawful (s.attached p)) : QueuesKept s (s.setRouter p r) := fun q hq => by
  rw [State.routerPort_setRouter, State.attached_setRouter]
  split
  · next own => rw [own] at hq ⊢; exact h hq
  · exact hq

/-- A context that leaves its port ATTACHED or DETACHED as it is. -/
theorem setPort (s : State) {p : Port} {c : PortContext} (h : c.state = (s.port p).state) : QueuesKept s (s.setPort p c) :=
  fun q hq => by
    rw [State.attached_setPort, h]
    split
    · next own => rw [own] at hq ⊢; exact hq
    · exact hq

/-! Notices and events (R155 to R157) -/

theorem notify (s : State) (p : Port) (n : Notice) : QueuesKept s (s.notify p n) := by
  unfold State.notify
  split
  · next on => exact .setRouter s fun h => by rw [on] at h ⊢; exact h.putNotice rfl
  · exact refl s

theorem notifySession (s : State) (p : Port) (k : Nat) (n : Notice) : QueuesKept s (s.notifySession p k n) := by
  unfold State.notifySession
  split
  · exact notify s p n
  · exact refl s

theorem notifyCommit (d : Draft) (c : Port × Nat) (n : Notice) (s : State) : QueuesKept s (s.notifyCommit d c n) := by
  unfold State.notifyCommit
  split
  · exact refl s
  · exact notifySession s _ _ n

theorem notifyOwner? (s : State) (r : Stream) (n : Option Notice) : QueuesKept s (s.notifyOwner? r n) := by
  unfold State.notifyOwner?
  split
  · unfold State.notifyOwner
    split
    · split
      · exact notify s _ _
      · exact refl s
    · exact refl s
  · exact refl s

theorem announceSettings (s : State) (ks : List Setting) (x : Settings) : QueuesKept s (s.announceSettings ks x) :=
  foldl (fun s _ => foldl (fun s p => notify s p _) allPorts s) ks s

theorem offer (e : Event) (s : State) (p : Port) : QueuesKept s (s.offer e p) := by
  unfold State.offer
  split
  · next taken =>
    have on : s.attached p = true := (Bool.and_eq_true_iff.1 taken).1
    exact .setRouter s fun h => by rw [on] at h ⊢; exact h.putEvent _
  · exact refl s

theorem raise (s : State) (e : Event) : QueuesKept s (s.raise e) := foldl (offer e) allPorts s

theorem raise? (s : State) (e : Option Event) : QueuesKept s (s.raise? e) := by
  unfold State.raise?
  split
  · exact raise s _
  · exact refl s

/-! Reports to the Stream Table (R15, R16, R115) -/

theorem recompute (s : State) : QueuesKept s s.recompute := by
  refine foldl (fun s h => ?_) allHandles s
  unfold State.recomputeStream
  dsimp only
  split
  · exact refl s
  · exact (notifyOwner? _ _ _).after rfl rfl

theorem setStale (b : Bool) (s : State) (p : Nat) : QueuesKept s (s.setStale b p) := by
  unfold State.setStale
  split
  · exact refl s
  · exact (recompute _).after rfl rfl

theorem setOutOfStep (s : State) (p : Nat) : QueuesKept s (s.setOutOfStep p) := by
  unfold State.setOutOfStep
  split
  · exact refl s
  · exact (recompute _).after rfl rfl

theorem freeOpened (s : State) (es : List DraftEntry) : QueuesKept s (s.freeOpened es) :=
  foldl (f := State.freeStream) (fun _ _ => of_eq rfl rfl) _ s

theorem discardDraft (s : State) (p : Port) : QueuesKept s (s.discardDraft p) := (freeOpened s _).andThen rfl rfl

end QueuesKept

/-! Batches (R58 to R62) -/

theorem takeSettings_queues (x : Settings) (s : State) : QueuesKept s (s.takeSettings x) := by
  rw [takeSettings_eq]
  exact .of_eq rfl rfl

theorem rejecting_queues (s : State) : QueuesKept s s.rejecting := by
  have rejected (s : State) (x : CommitEntry × Nat × FailReason) : QueuesKept s (s.reject x) :=
    (QueuesKept.notifySession _ _ _ _).after rfl rfl
  exact (QueuesKept.foldl rejected _ (s.setCommits [])).after rfl rfl

theorem completeSettings_queues (v : Validation) (s : State) : QueuesKept s (s.completeSettings v) := by
  have completed (s : State) (c : CommitEntry) : QueuesKept s (s.completeCommit c) :=
    (QueuesKept.notifySession _ _ _ _).after rfl rfl
  exact ((takeSettings_queues v.settings s).trans (.foldl completed _ _)).trans (.announceSettings _ _ _)

theorem accepting_queues (v : Validation) (s : State) : QueuesKept s (s.accepting v) := by
  have acceptedOp (s : State) (op : DraftEntry) : QueuesKept s (s.acceptOp op) := by
    unfold State.acceptOp
    split
    · exact .of_eq rfl rfl
    · exact .refl s
  have accepted (s : State) (c : CommitEntry) : QueuesKept s (s.acceptCommit c) :=
    (QueuesKept.foldl acceptedOp _ (s.setDraft c.port _)).after rfl rfl
  exact (QueuesKept.foldl (f := State.forceOut) (fun _ _ => .of_eq rfl rfl) s.marked s).trans (.foldl accepted _ _)

theorem handOver_queues (v : Validation) (s : State) : QueuesKept s (s.handOver v) := by
  rw [handOver_eq]
  exact ((accepting_queues v s).trans (.foldl (QueuesKept.setStale true) _ _)).andThen
    (State.setSwitch_router _ _) (State.setSwitch_ports _ _)

theorem formIfDue_queues (s : State) : QueuesKept s s.formIfDue := by
  unfold State.formIfDue
  split
  · rw [formBatch_eq]
    split
    · exact (rejecting_queues s).trans (handOver_queues _ _)
    · split
      · exact rejecting_queues s
      · exact (rejecting_queues s).trans (completeSettings_queues _ _)
  · exact .refl s

/-! The switch (R75 to R81) -/

theorem switchResults_queues (old : State) (b : Batch) (s : State) : QueuesKept s (State.switchResults old b s) := by
  unfold State.switchResults
  dsimp only
  refine QueuesKept.trans ?_ (.raise _ _)
  refine QueuesKept.trans ?_ (.announceSettings _ _ _)
  refine QueuesKept.trans ?_ (.foldl (fun s h => .notifyOwner? s _ _) _ _)
  exact .foldl (fun s c => .notifyCommit _ _ _ s) _ _

theorem switchCycle_queues (s : State) : QueuesKept s s.switchCycle := by
  unfold State.switchCycle
  split
  · split
    · refine QueuesKept.trans ?_ (switchResults_queues _ _ _)
      rw [switchChanges_eq]
      exact .of_eq rfl rfl
    · exact .refl s
  · exact .refl s

theorem undoBatch_queues (b : Batch) (s : State) : QueuesKept s (s.undoBatch b) := by
  have returned (s : State) (c : Port × Nat) : QueuesKept s (s.returnDraft c) := by
    unfold State.returnDraft
    split
    · exact .discardDraft s c.1
    · exact .of_eq rfl rfl
  have unmarked : QueuesKept s (State.unmarkStales b.stale { s with streams := s.streams.map Stream.restored }) :=
    (QueuesKept.foldl (QueuesKept.setStale false) _ _).after rfl rfl
  exact (unmarked.trans (.foldl returned _ _)).andThen rfl rfl

theorem abandon_queues (w : AbandonReason) (s : State) : QueuesKept s (s.abandon w) := by
  unfold State.abandon
  split
  · exact (undoBatch_queues _ s).trans (.foldl (fun s c => .notifyCommit _ _ _ s) _ _)
  · exact .refl s

theorem abandonOnLoss_queues (ps : List Nat) (s : State) : QueuesKept s (s.abandonOnLoss ps) := by
  unfold State.abandonOnLoss
  split
  · exact abandon_queues _ s
  · exact .refl s

theorem settleEnd_queues (s : State) : QueuesKept s s.settleEnd := by
  have marked (s : State) (x : Transfer) : QueuesKept s (s.markUnsettled x) := by
    unfold State.markUnsettled
    split
    · split
      · exact .setStale true s _
      · exact .setOutOfStep s _
    · exact .refl s
  exact (QueuesKept.foldl marked s.switch.transfers s).andThen rfl rfl

theorem readSwitch_queues (a : Arrival) (s : State) : QueuesKept s (s.readSwitch a) := by
  unfold State.readSwitch
  split
  · exact .refl s
  · unfold State.readPrepare
    split
    · exact .refl s
    · split
      · exact abandon_queues _ s
      · exact .of_eq rfl rfl
  · exact .of_eq rfl rfl
  · dsimp only
    split
    · exact (settleEnd_queues (s.setSwitch _)).after rfl rfl
    · exact .of_eq rfl rfl

/-! The hops (R132) -/

theorem reportHops_queues (old s : State) : QueuesKept s (State.reportHops old s) := by
  have raised := QueuesKept.foldl
    (fun s' p => .raise? s' (hopEvent p (old.entry p).hopState (s'.entry p).hopState)) positions s
  unfold State.reportHops
  dsimp only
  split
  · exact raised.trans (.recompute _)
  · exact raised

theorem readHops_queues (a : Arrival) (s : State) : QueuesKept s (s.readHops a) := by
  have graded (s' : State) (p : Nat) : QueuesKept s' (s'.gradeHop a.trail s.chain.endM p) := by
    unfold State.gradeHop
    split
    · exact .of_eq rfl rfl
    · exact .refl s'
  exact (QueuesKept.foldl graded positions s).trans (reportHops_queues s _)

theorem recoverHop_queues (p : Nat) (s : State) : QueuesKept s (s.recoverHop p) := (reportHops_queues s _).after rfl rfl

/-! Remote access and event fetch (R143 to R148, R151) -/

theorem failRemotes_queues (p : Port) (w : RemoteReason) (l : List RemoteRequest) (s : State) :
    QueuesKept s (l.foldl (State.failRemote p w) s) := .foldl (fun s _ => .notifySession s p _ _) l s

theorem readRemote_queues (a : Arrival) (s : State) : QueuesKept s (s.readRemote a) := by
  have answered (o : Outstanding) (s : State) : QueuesKept s (s.answerRemote a o) := by
    unfold State.answerRemote
    split
    · exact .notifySession s _ _ _
    · split
      · exact .of_eq rfl rfl
      · exact .notifySession s _ _ _
  unfold State.readRemote
  split
  · split
    · exact .of_eq rfl rfl
    · exact (answered _ (s.setOutstanding none)).after rfl rfl
  · exact .refl s

theorem readFetch_queues (a : Arrival) (s : State) : QueuesKept s (s.readFetch a) := by
  have taken (p : Nat) (ans : Option Answer) (s : State) : QueuesKept s (s.takeEvent p ans) := by
    unfold State.takeEvent
    split
    · dsimp only
      split
      · split
        · exact (QueuesKept.raise (s.setFetch _) _).after rfl rfl
        · exact .of_eq rfl rfl
      · exact .of_eq rfl rfl
    · exact .refl s
  have answered : QueuesKept s (s.answerFetch a) := by
    unfold State.answerFetch
    split
    · exact (taken _ _ (s.setFetch _)).after rfl rfl
    · exact .refl s
  unfold State.readFetch State.readPending
  split
  · exact answered.andThen rfl rfl
  · exact answered

/-! Losses and moves (R108 to R117) -/

theorem losePositions_queues (ps : List Nat) (s : State) : QueuesKept s (s.losePositions ps) := by
  have unwanted (s : State) : QueuesKept s (s.loseFetch ps) := .of_eq rfl rfl
  have reported (s : State) : QueuesKept s (s.reportLosses ps) := by
    unfold State.reportLosses
    refine QueuesKept.trans ?_ (.foldl (fun s p => (failRemotes_queues p _ _ (s.setRemoteQueue p _)).after rfl rfl) _ _)
    exact ((QueuesKept.recompute s).trans (abandonOnLoss_queues ps _)).trans (unwanted _)
  unfold State.losePositions
  split
  · exact .refl s
  · exact ((QueuesKept.foldl (fun s p => .raise s _) ps (s.setChain _)).trans (reported _)).after rfl rfl

theorem breakChain_queues (s : State) : QueuesKept s s.breakChain := (losePositions_queues _ (s.setChain _)).after rfl rfl

theorem moveEntry_queues (s : State) (p : Nat) : QueuesKept s (s.moveEntry p) := by
  unfold State.moveEntry
  split
  · exact ((QueuesKept.raise (s.setEntry p _) _).trans (.recompute _)).after rfl rfl
  · split
    · exact (QueuesKept.recompute (s.setEntry p _)).after rfl rfl
    · exact .refl s

theorem moveEntries_queues (s : State) : QueuesKept s s.moveEntries := .foldl moveEntry_queues positions s

theorem ensureResync_queues (s : State) : QueuesKept s s.ensureResync := .of_eq rfl rfl

theorem settleWork_queues (m : Meet) (s : State) : QueuesKept s (s.settleWork m) := by
  cases m
  · exact ((moveEntries_queues s).trans (formIfDue_queues _)).trans (ensureResync_queues _)
  · exact ((formIfDue_queues s).trans (moveEntries_queues _)).trans (ensureResync_queues _)

theorem applyBreak_queues (a : Arrival) (m : Meet) (s : State) : QueuesKept s (s.applyBreak a m) := by
  unfold State.applyBreak
  dsimp only
  split
  · exact ((breakChain_queues (s.setChain _)).trans (settleWork_queues m _)).after rfl rfl
  · exact .of_eq rfl rfl

/-! The answers of the chain client (R106, R112, R114, R118) -/

theorem raiseRecompute_queues (s : State) (e : Event) : QueuesKept s (s.raise e).recompute :=
  (QueuesKept.raise s e).trans (.recompute _)

theorem answerSeek_queues (p : Nat) (ans : Option Answer) (s : State) : QueuesKept s (s.answerSeek p ans) := by
  unfold State.answerSeek
  split
  · split
    · split
      · exact (raiseRecompute_queues (s.setChain _) _).after rfl rfl
      · split
        · exact .of_eq rfl rfl
        · exact .refl s
    · exact .refl s
  · exact .refl s

theorem enrollByProbe_queues (q : Nat) (i : Identity) (s : State) : QueuesKept s (s.enrollByProbe q i) := by
  by_cases replaced : (s.entry q).replacedBy i
  · rw [enrollByProbe_replaced replaced]
    exact ((QueuesKept.raise (State.markReplaced q _) _).trans (raiseRecompute_queues _ _)).after rfl rfl
  · rw [enrollByProbe_joined replaced]
    exact (raiseRecompute_queues (s.setChain _) _).after rfl rfl

theorem answerProbe_queues (q : Nat) (ans : Option Answer) (s : State) : QueuesKept s (s.answerProbe q ans) := by
  unfold State.answerProbe
  split
  · split
    · exact enrollByProbe_queues q _ s
    · exact .refl s
  · exact .refl s

theorem answerExtend_queues (p : Nat) (ans : Option Answer) (s : State) : QueuesKept s (s.answerExtend p ans) := by
  unfold State.answerExtend
  split
  · exact .of_eq rfl rfl
  · exact .refl s

theorem answerResync_queues (p : Nat) (ans : Option Answer) (s : State) : QueuesKept s (s.answerResync p ans) := by
  have failed : QueuesKept s (s.resyncFailed p) := by
    unfold State.resyncFailed
    split
    · exact .of_eq rfl rfl
    · exact losePositions_queues _ s
  unfold State.answerResync
  split
  · split
    · split
      · exact (raiseRecompute_queues (s.setChain _) _).after rfl rfl
      · exact failed
    · exact .refl s
  · exact .refl s

theorem answerChain_queues (a : Arrival) (s : State) : QueuesKept s (s.answerChain a) := by
  unfold State.answerChain
  split
  · exact answerSeek_queues _ _ s
  · exact answerExtend_queues _ _ s
  · exact answerResync_queues _ _ s
  · exact answerProbe_queues _ _ s
  all_goals exact .refl s

theorem readChain_queues (a : Arrival) (m : Meet) (s : State) : QueuesKept s (s.readChain a m) := by
  have entries (s : State) : QueuesKept s (s.readEntries a) :=
    (moveEntries_queues _).after (State.setChain_router s _) (State.setChain_ports s _)
  unfold State.readChain
  refine QueuesKept.trans ?_ (answerChain_queues a _)
  exact ((applyBreak_queues a m (s.setChain (s.chain.seeTrail a.trail))).after rfl rfl).trans (entries _)

/-! The trail arrival -/

theorem runReader_queues (a : Arrival) (m : Meet) (s : State) (r : Reader) : QueuesKept s (s.runReader a m r) := by
  have read {t : State} (h : QueuesKept s t) : QueuesKept s (t.settleWork m) := h.trans (settleWork_queues m t)
  cases r with
  | hop => exact read (readHops_queues a s)
  | chain => exact read (readChain_queues a m s)
  | switch => exact read (readSwitch_queues a s)
  | fetch => exact read (readFetch_queues a s)
  | remote => exact read (readRemote_queues a s)

theorem arrive_queues (up : Option UpPass) (o : TrailOrder) (s : State) : QueuesKept s (s.arrive up o) := by
  unfold State.arrive
  split
  · exact (QueuesKept.foldl (runReader_queues _ _) _ (s.setCycle _)).after rfl rfl
  · exact .refl s

theorem openCycle_queues (s : State) : QueuesKept s s.openCycle := by
  unfold State.openCycle
  split
  · exact .refl s
  · exact (arrive_queues none TrailOrder.default s).andThen rfl rfl

/-! Session ends (R54, R147, R165, R167) -/

/-- Up to the Router's part, a session end leaves the Router. -/
theorem settleDraft_router (p : Port) (s : State) : (s.settleDraft p).router = s.router := by
  have freed (s : State) (es : List DraftEntry) : (s.freeOpened es).router = s.router :=
    foldl_frame (R := fun s t : State => t.router = s.router) (f := State.freeStream) (fun _ => rfl) (fun a b => b.trans a)
      (fun _ _ => rfl) _ s
  unfold State.settleDraft
  split
  · rfl
  · exact freed s _
  · exact freed (s.dropCommit p) _
  · rfl

theorem routerPort_endSession (p q : Port) (w : EndReason) (s : State) :
    (s.endSession p w).routerPort q = if q = p then RouterPort.reset else s.routerPort q := by
  have before : (((s.setPort p ((s.port p).ended w)).settleDraft p).orphanStreams p (s.port p).session).router = s.router :=
    settleDraft_router p (s.setPort p ((s.port p).ended w))
  rw [State.endSession, State.routerPort_setRouter]
  exact if_congr Iff.rfl rfl (congrArg (·.get q) before)

theorem attached_endSession_other {p q : Port} (h : q ≠ p) (w : EndReason) (s : State) :
    (s.endSession p w).attached q = s.attached q := by
  have port : (s.endSession p w).port q = (s.setPort p ((s.port p).ended w)).port q :=
    congrArg (·.get q) (endSession_frame p w s).ports
  rw [State.attached, port, State.port_setPort, if_neg h]
  rfl

/-- R165, R167: the port whose session ends is left an empty queue and its attention line released. -/
theorem endSession_queues (p : Port) (w : EndReason) (s : State) : QueuesKept s (s.endSession p w) := fun q h => by
  rw [routerPort_endSession]
  split
  · exact .reset _
  · next other =>
    rw [attached_endSession_other other]
    exact h

theorem expireLease_queues (p : Port) (s : State) : QueuesKept s (s.expireLease p) :=
  (endSession_queues p _ s).trans (formIfDue_queues _)

/-! The acts of a cycle start -/

theorem tickLease_queues (p : Port) (s : State) : QueuesKept s (s.tickLease p) := by
  rcases tickLease_cases p s with ⟨e, -⟩ | ⟨n, -, -, -, e⟩ | ⟨e, -⟩ <;> rw [e]
  · exact expireLease_queues p s
  · exact .setPort s rfl
  · exact .refl s

theorem tickProbe_queues (s : State) : QueuesKept s s.tickProbe := by
  unfold State.tickProbe
  split
  · exact .refl s
  · exact .refl s
  · split <;> exact .of_eq rfl rfl

theorem headChecks_queues (s : State) : QueuesKept s s.headChecks :=
  .foldl (fun s p => (failRemotes_queues p _ _ (s.setRemoteQueue p _)).after rfl rfl) allPorts s

theorem sendChain_queues (i : ChainItem) (s : State) : QueuesKept s (s.sendChain i).1 := by
  have resync (r : ResyncTransfer) : QueuesKept s (s.sendResync r).1 := by
    unfold State.sendResync
    dsimp only
    split <;> exact .of_eq rfl rfl
  unfold State.sendChain
  cases i <;> dsimp only
  case bringUpExtend | bringUpSeek | extend => split <;> exact .refl s
  case resyncLine | resyncSeal =>
    split
    · exact resync _
    · exact .refl s
  case probe => exact .of_eq rfl rfl

theorem fill_queues (c : Option Client) (s : State) : QueuesKept s (s.fill c).1 := by
  unfold State.fill
  split
  · exact .refl s
  · exact .of_eq rfl rfl
  · exact sendChain_queues _ s
  · unfold State.sendFetch; split <;> exact .of_eq rfl rfl
  · unfold State.sendRemote; split <;> exact .of_eq rfl rfl

theorem grantSlot_queues (s : State) : QueuesKept s s.grantSlot := by
  have ticked (t : State) : QueuesKept t t.tickBringUp := by
    unfold State.tickBringUp
    split <;> exact .of_eq rfl rfl
  have put (c : Option Client) (m : ControlMsg) (t : State) : QueuesKept t (t.putMessage c m) := .of_eq rfl rfl
  unfold State.grantSlot State.grantTo
  refine QueuesKept.trans ?_ (ticked _)
  exact ((headChecks_queues s).trans (fill_queues _ s.headChecks)).trans (put _ _ _)

theorem sendLead_queues (m : Tab Sample 64) (s : State) : QueuesKept s (s.firstBringUp.sendLead m) := by
  refine QueuesKept.andThen (t := s.firstBringUp) ?_ rfl rfl
  unfold State.firstBringUp
  split <;> exact .of_eq rfl rfl

theorem runAct_queues (m : Tab Sample 64) (s : State) (a : CycleAct) : QueuesKept s (s.runAct m a) := by
  cases a with
  | lease p => exact tickLease_queues p s
  | switch => exact switchCycle_queues s
  | probe => exact tickProbe_queues s
  | slot => exact grantSlot_queues s
  | lead => exact sendLead_queues m s

theorem nextCycle_queues (m : Tab Sample 64) (o : List CycleAct) (s : State) : QueuesKept s (s.nextCycle m o) := by
  unfold State.nextCycle State.makeActs
  exact ((openCycle_queues s).trans (.foldl (runAct_queues m) _ _)).andThen (State.setCycle_router _ _)
    (State.setCycle_ports _ _)

theorem actAlone_queues {due : State → Bool} {a : CycleAct} {act : State → State} (h : ∀ s, QueuesKept s (act s)) (s : State) :
    QueuesKept s (s.actAlone due a act) := by
  obtain ⟨-, -, e⟩ | ⟨-, e⟩ := actAlone_cases due a act s <;> rw [e]
  · exact ((openCycle_queues s).trans (h _)).andThen rfl rfl
  · exact .refl s

theorem leaveJoining_queues (p : Nat) (s : State) : QueuesKept s (s.leaveJoining p) := by
  unfold State.leaveJoining
  split
  · exact (moveEntry_queues s p).trans (ensureResync_queues _)
  · exact moveEntry_queues s p

end Sys2Proof.Machine


/-! ### Requests and commands: the port queues stay bounded (R154, R161, R165) -/

namespace Sys2Proof.Machine

/-! The request frame (R171, R173, R174) -/

theorem respond_state (r : Response) (c : PortContext) : (c.respond r).state = c.state := by
  unfold PortContext.respond PortContext.renewed
  split <;> rfl

theorem readOut_state (clocks : Nat) (c : PortContext) : (c.readOut clocks).state = c.state := by
  unfold PortContext.readOut
  split
  · dsimp only
    split <;> rfl
  · rfl

theorem respond_queues (p : Port) (r : Response) (s : State) : QueuesKept s (s.respond p r) :=
  .setPort s (respond_state r _)

theorem overran_queues (p : Port) (s : State) : QueuesKept s (s.setPort p (s.port p).overran) := .setPort s rfl

theorem refuse_queues (p : Port) (st : Status) (s : State) : QueuesKept s (s.refuse p st) := by
  unfold State.refuse
  split
  · exact overran_queues p s
  · exact respond_queues p _ s

/-- A request frame keeps the queues when its owner does, and what it sets off does. -/
theorem requestThen_queues {α : Type} {open? : Bool} {p : Port} {b : Sized α} {owner : α → State → State × Response}
    {after : State → State} (h : ∀ a s, QueuesKept s (owner a s).1) (ha : ∀ s, QueuesKept s (after s)) (s : State) :
    QueuesKept s (s.requestThen open? p b owner after) := by
  have taken : QueuesKept s (s.takeRequest open? p b owner).1 := by
    unfold State.takeRequest
    split
    · exact .refl s
    · split
      · exact .refl s
      · exact h _ s
  have answered (r : Response) : QueuesKept s ((s.takeRequest open? p b owner).1.respond p r) :=
    taken.trans (respond_queues p r _)
  unfold State.requestThen
  split
  · exact overran_queues p s
  · dsimp only
    split
    · exact (answered _).trans (ha _)
    · exact answered _

theorem request_queues {α : Type} {open? : Bool} {p : Port} {b : Sized α} {owner : α → State → State × Response}
    (h : ∀ a s, QueuesKept s (owner a s).1) (s : State) : QueuesKept s (s.request open? p b owner) :=
  requestThen_queues h .refl s

/-! The owners -/

/-- R169: a port that attaches was DETACHED, so that its queue is empty. -/
theorem takeAttach_queues (p : Port) (a : Byte) (s : State) : QueuesKept s (s.takeAttach p a).1 := by
  unfold State.takeAttach
  split
  · exact .refl s
  · next off =>
    intro q h
    show (s.routerPort q).Lawful ((s.setPort p _).attached q)
    rw [State.attached_setPort]
    split
    · next own =>
      rw [own, Bool.eq_false_of_not_eq_true off] at h
      rw [own]
      exact h.attach
    · exact h

theorem takeSubscribe_queues (p : Port) (a : SubscribeArgs) (s : State) : QueuesKept s (s.takeSubscribe p a).1 := by
  unfold State.takeSubscribe
  split
  · exact .refl s
  · exact .setRouter s fun h => h.subscribe _

theorem takeReadQueue_queues (p : Port) (b : Byte) (s : State) : QueuesKept s (s.takeReadQueue p b).1 := by
  unfold State.takeReadQueue
  split
  · exact .refl s
  · exact .setRouter s fun h => h.read _

theorem takeDraftOpen_queues (p : Port) (a : OpenArgs) (s : State) : QueuesKept s (s.takeDraftOpen p a).1 := by
  unfold State.takeDraftOpen
  repeat' split
  all_goals exact .of_eq rfl rfl

theorem takeDraftClose_queues (p : Port) (a : Byte) (s : State) : QueuesKept s (s.takeDraftClose p a).1 := by
  unfold State.takeDraftClose
  repeat' split
  all_goals exact .of_eq rfl rfl

theorem takeDraftResize_queues (p : Port) (a : ResizeArgs) (s : State) : QueuesKept s (s.takeDraftResize p a).1 := by
  unfold State.takeDraftResize
  repeat' split
  all_goals exact .of_eq rfl rfl

theorem takeDraftSet_queues (p : Port) (a : SetArgs) (s : State) : QueuesKept s (s.takeDraftSet p a).1 := by
  unfold State.takeDraftSet
  repeat' split
  all_goals exact .of_eq rfl rfl

theorem takeDraftDrop_queues (p : Port) (b : Byte) (s : State) : QueuesKept s (s.takeDraftDrop p b).1 := by
  unfold State.takeDraftDrop
  split
  · exact .refl s
  · split
    · exact .refl s
    · split
      · exact .refl s
      · exact (QueuesKept.freeOpened s _).andThen rfl rfl

theorem takeDraftClear_queues (p : Port) (a : Unit) (s : State) : QueuesKept s (s.takeDraftClear p a).1 := by
  unfold State.takeDraftClear
  split
  · exact .refl s
  · exact .refl s
  · exact .refl s
  · exact .discardDraft s p

theorem takeDraftView_queues (p : Port) (b : Byte) (s : State) : QueuesKept s (s.takeDraftView p b).1 := by
  unfold State.takeDraftView
  split <;> exact .refl s

theorem takeCommit_queues (p : Port) (b : Byte) (s : State) : QueuesKept s (s.takeCommit p b).1 := by
  unfold State.takeCommit
  repeat' split
  all_goals exact .of_eq rfl rfl

theorem takeWithdraw_queues (p : Port) (a : Unit) (s : State) : QueuesKept s (s.takeWithdraw p a).1 := by
  unfold State.takeWithdraw
  split <;> exact .of_eq rfl rfl

theorem takeStreamInfo_queues (b : Byte) (s : State) : QueuesKept s (s.takeStreamInfo b).1 := by
  unfold State.takeStreamInfo
  split <;> exact .refl s

theorem takeListStreams_queues (b : Byte) (s : State) : QueuesKept s (s.takeListStreams b).1 := by
  unfold State.takeListStreams
  split <;> exact .refl s

theorem takeChainInfo_queues (b : Byte) (s : State) : QueuesKept s (s.takeChainInfo b).1 := by
  unfold State.takeChainInfo
  repeat' split
  all_goals exact .refl s

theorem takeRemote_queues (p : Port) (r : Option RemoteRequest) (s : State) : QueuesKept s (s.takeRemote p r).1 := by
  unfold State.takeRemote
  repeat' split
  all_goals exact .of_eq rfl rfl

/-- R18, R122, R148: of an accepted restart the Router sees the notices of the closed streams, those of the failed requests and
CHAIN_RESTARTED. -/
theorem restartChain_queues (p : Port) (s : State) : QueuesKept s (s.restartChain p) := by
  have closed (s : State) (h : Handle) : QueuesKept s (s.restartStream p h) := by
    unfold State.restartStream
    split
    · exact (QueuesKept.notifyOwner? (s.freeStream h) _ _).after rfl rfl
    · exact .refl s
  have failed (s : State) : QueuesKept s s.restartRemote :=
    (QueuesKept.foldl (fun t q => failRemotes_queues q _ (s.restartFails q) t) allPorts (s.setRemote _)).after rfl rfl
  have begun (s : State) (x : SwitchEngine) :
      QueuesKept s ((((s.setDraft p Draft.empty).setSwitch x).setChain ChainManager.restarted).enablePort) := .of_eq rfl rfl
  have unwanted (s : State) (x : FetchUnit) : QueuesKept s (s.setFetch x) := .of_eq rfl rfl
  unfold State.restartChain
  dsimp only
  refine (QueuesKept.trans ?_ (unwanted _ _)).trans (.raise _ _)
  exact ((QueuesKept.foldl closed allHandles s).trans (begun _ _)).trans (failed _)

theorem takeChainRestart_queues (p : Port) (a : Unit) (s : State) : QueuesKept s (s.takeChainRestart p a).1 := by
  unfold State.takeChainRestart
  split
  · exact .refl s
  · split
    · exact .refl s
    · dsimp only
      exact restartChain_queues p s

/-! Every command -/

/-- What a transaction of a host port makes of the queues. -/
theorem exec_queues_of_hostPort {c : Instr} {p : Port} (hc : hostPort c = some p) {s t : State} (e : exec c s = .next t) :
    QueuesKept s t := by
  have released {f : State → State} (h : ∀ s, QueuesKept s (f s)) (e : s.whenReleased f = .next t) : QueuesKept s t :=
    whenReleased_keeps .refl h e
  cases c <;> cases hc
  case frameError => exact released (refuse_queues _ _) e
  case badRequest => exact released (refuse_queues _ _) e
  case responseRead => exact released (fun s => .setPort s (readOut_state _ _)) e
  case attach => exact released (request_queues (takeAttach_queues _)) e
  case detach => exact released (requestThen_queues (fun _ => endSession_queues _ .detach) formIfDue_queues) e
  case portStatus => exact released (request_queues fun _ => .refl) e
  case draftOpen => exact released (request_queues (takeDraftOpen_queues _)) e
  case draftClose => exact released (request_queues (takeDraftClose_queues _)) e
  case draftResize => exact released (request_queues (takeDraftResize_queues _)) e
  case draftSet => exact released (request_queues (takeDraftSet_queues _)) e
  case draftDrop => exact released (request_queues (takeDraftDrop_queues _)) e
  case draftClear => exact released (request_queues (takeDraftClear_queues _)) e
  case draftView => exact released (request_queues (takeDraftView_queues _)) e
  case commit => exact released (requestThen_queues (takeCommit_queues _) formIfDue_queues) e
  case withdraw => exact released (request_queues (takeWithdraw_queues _)) e
  case streamInfo => exact released (request_queues takeStreamInfo_queues) e
  case listStreams => exact released (request_queues takeListStreams_queues) e
  case planInfo => exact released (request_queues fun _ => .refl) e
  case chainInfo => exact released (request_queues takeChainInfo_queues) e
  case chainRestart => exact released (request_queues (takeChainRestart_queues _)) e
  case remoteRead => exact released (request_queues fun _ => takeRemote_queues _ _) e
  case remoteWrite => exact released (request_queues fun _ => takeRemote_queues _ _) e
  case subscribe => exact released (request_queues (takeSubscribe_queues _)) e
  case readQueue => exact released (request_queues (takeReadQueue_queues _)) e

/-- R154, R161, R165 at every command. -/
theorem exec_queues (c : Instr) {s t : State} (e : exec c s = .next t) : QueuesKept s t := by
  have released {f : State → State} (h : ∀ s, QueuesKept s (f s)) (e : s.whenReleased f = .next t) : QueuesKept s t :=
    whenReleased_keeps .refl h e
  have guarded {c : State → Bool} {f : State → State} (h : ∀ s, QueuesKept s (f s))
      (e : s.whenReleased (State.underGuard c f) = .next t) : QueuesKept s t := released (underGuard_keeps .refl h) e
  have settled (m : Meet) {f : State → State} (h : ∀ s, QueuesKept s (f s)) (s : State) : QueuesKept s ((f s).settleWork m) :=
    (h s).trans (settleWork_queues m _)
  cases c
  case deviceReset => cases e; exact fun p _ => (reset_routerPort p).symm ▸ .reset _
  case resetRelease => cases e; exact .of_eq rfl rfl
  case cycleStart m o => exact released (nextCycle_queues m o) e
  case trailArrival up o => exact released (arrive_queues (some up) o) e
  case receiveWindowClose o => exact released (arrive_queues none o) e
  case leaseExpiry p => exact released (actAlone_queues (expireLease_queues p)) e
  case probeDue => exact released (actAlone_queues tickProbe_queues) e
  case bringupSeek => exact released (actAlone_queues grantSlot_queues) e
  case switchCycle => exact released (actAlone_queues switchCycle_queues) e
  case batchFormation => exact released formIfDue_queues e
  case isolationRecovery p => exact guarded (settled .resyncFirst (recoverHop_queues p)) e
  case breakDetected m => exact guarded (settled m breakChain_queues) e
  case quietCountComplete p => exact guarded (leaveJoining_queues p) e
  case resyncEntry => exact guarded (fun s => (moveEntries_queues s).trans (ensureResync_queues _)) e
  case prepareTimeout m => exact guarded (settled m (abandon_queues .timeout)) e
  case settleEnd m => exact guarded (settled m settleEnd_queues) e
  all_goals exact exec_queues_of_hostPort rfl e

/-- Settles O54: the Router offers an entry to an ATTACHED port only, where `RouterPort.Lawful.putEvent` and
`RouterPort.Lawful.putNotice` keep the bounds and assert the line; a port leaves ATTACHED with its queue reset, and enters it
with an empty one. -/
theorem portQueuesKept : Obligations.PortQueuesKept := by
  unfold Obligations.PortQueuesKept
  intro s t bounded attention e
  have kept : QueuesKept s t := by
    unfold step at e
    split at e
    · cases e; exact .refl s
    · exact (exec_queues _ e).after rfl rfl
  exact (queueLaws_iff t).2 fun p => kept p ((queueLaws_iff s).1 ⟨bounded, attention⟩ p)

end Sys2Proof.Machine


/-! ### Transactions and the commands they are (R173, R179, R180, Tables 11-3 and 11-4) -/

namespace Sys2Proof.Machine

/-! Bodies (Table 11-4) -/

/-- A body and its bytes: `parse` reads the bodies of the sizes `ok` as those of the operands `good` holds of, reads each of
these back from its bytes, and takes any other body as one of the wrong size. -/
structure ReadsBody {α : Type} (ok : Nat → Bool) (good : α → Prop) (bytes : α → List Byte)
    (parse : List Byte → Sized α) : Prop where
  back : ∀ a, good a → parse (bytes a) = .sized a
  short : ∀ a, good a → (bytes a).length ≤ 28
  right : ∀ l, ok l.length = true → ∃ a, good a ∧ parse l = .sized a
  wrong : ∀ l, ok l.length = false → parse l = .wrongSize l

namespace ReadsBody

theorem oneByte : ReadsBody (· == 1) (fun _ => True) (fun x => [x]) oneByte where
  back _ _ := rfl
  short _ _ := Nat.le_of_ble_eq_true rfl
  right
    | [_], _ => ⟨_, trivial, rfl⟩
  wrong l h := by
    unfold Machine.oneByte
    split <;> [cases h; rfl]

theorem noBytes : ReadsBody (· == 0) (fun _ => True) (fun _ => []) noBytes where
  back _ _ := rfl
  short _ _ := Nat.zero_le _
  right
    | [], _ => ⟨_, trivial, rfl⟩
  wrong l h := by
    unfold Machine.noBytes
    split <;> [cases h; rfl]

theorem openBody : ReadsBody (· == 9) (fun _ => True)
    (fun a => a.source :: a.sinkCount :: a.slots.toList ++ a.lanes :: bytes16 a.label) openBody where
  back
    | ⟨_, _, .cons _ (.cons _ (.cons _ (.cons _ .nil))), _, label⟩, _ => by
      have joined : word16 (label.extractLsb' 8 8) (label.extractLsb' 0 8) = label :=
        (BitVec.extractLsb'_append_extractLsb'_eq_extractLsb' rfl).trans BitVec.extractLsb'_eq_self
      simp only [Tab.toList, bytes16, List.cons_append, List.nil_append, Machine.openBody, joined]
  short
    | ⟨_, _, .cons _ (.cons _ (.cons _ (.cons _ .nil))), _, _⟩, _ => Nat.le_of_ble_eq_true rfl
  right
    | [_, _, _, _, _, _, _, _, _], _ => ⟨_, trivial, rfl⟩
  wrong l h := by
    unfold Machine.openBody
    split <;> [cases h; rfl]

theorem resizeBody : ReadsBody (· == 2) (fun _ => True) (fun a => [a.handle, a.lanes]) resizeBody where
  back _ _ := rfl
  short _ _ := Nat.le_of_ble_eq_true rfl
  right
    | [_, _], _ => ⟨_, trivial, rfl⟩
  wrong l h := by
    unfold Machine.resizeBody
    split <;> [cases h; rfl]

theorem setBody : ReadsBody (· == 2) (fun _ => True) (fun a => [a.setting, a.value]) setBody where
  back _ _ := rfl
  short _ _ := Nat.le_of_ble_eq_true rfl
  right
    | [_, _], _ => ⟨_, trivial, rfl⟩
  wrong l h := by
    unfold Machine.setBody
    split <;> [cases h; rfl]

theorem readBody : ReadsBody (· == 4) (fun _ => True) (fun a => [a.target, a.address, a.length, a.tag]) readBody where
  back _ _ := rfl
  short _ _ := Nat.le_of_ble_eq_true rfl
  right
    | [_, _, _, _], _ => ⟨_, trivial, rfl⟩
  wrong l h := by
    unfold Machine.readBody
    split <;> [cases h; rfl]

theorem subscribeBody : ReadsBody (· == 2) (fun _ => True) (fun a => [a.position, a.classes]) subscribeBody where
  back _ _ := rfl
  short _ _ := Nat.le_of_ble_eq_true rfl
  right
    | [_, _], _ => ⟨_, trivial, rfl⟩
  wrong l h := by
    unfold Machine.subscribeBody
    split <;> [cases h; rfl]

theorem writeBody : ReadsBody writeSize (fun a => 1 ≤ a.data.length ∧ a.data.length ≤ 4)
    (fun a => a.target :: a.address :: a.length :: a.tag :: a.data) writeBody where
  back
    | ⟨_, _, _, _, _ :: _⟩, ⟨_, most⟩ => if_pos (Nat.le_of_succ_le_succ most)
  short
    | ⟨_, _, _, _, data⟩, ⟨_, most⟩ => by
      have : data.length ≤ 4 := most
      simp only [List.length_cons]
      omega
  right
    | _ :: _ :: _ :: _ :: _ :: rest, h => by
      simp only [writeSize, List.length_cons, Bool.and_eq_true, decide_eq_true_eq] at h
      exact ⟨_, ⟨Nat.le_add_left _ _, by simp only [List.length_cons]; omega⟩, if_pos (by omega)⟩
  wrong l h := by
    unfold Machine.writeBody
    split
    · simp only [writeSize, List.length_cons, Bool.and_eq_false_iff, decide_eq_false_iff_not] at h
      exact if_neg (by omega)
    · rfl

variable {α : Type} {ok : Nat → Bool} {good : α → Prop} {bytes : α → List Byte} {parse : List Byte → Sized α}
  (reads : ReadsBody ok good bytes parse)

include reads

theorem fits {l : List Byte} (fit : l.length ≤ 28) : (parse l).fits ok = true := by
  cases size : ok l.length with
  | true => obtain ⟨a, -, e⟩ := reads.right l size; rw [e]; rfl
  | false => rw [reads.wrong l size]; simp [Sized.fits, fit, size]

/-- A body of the right size or of a wrong one that fits a frame is read back. -/
theorem parse_bodyBytes {b : Sized α} (fit : b.fits ok = true) (h : ∀ a, b = .sized a → good a) :
    (bodyBytes bytes b).length ≤ 28 ∧ parse (bodyBytes bytes b) = b := by
  cases b with
  | sized a => exact ⟨reads.short a (h a rfl), reads.back a (h a rfl)⟩
  | wrongSize l =>
    simp only [Sized.fits, Bool.and_eq_true, Bool.not_eq_true', decide_eq_true_eq] at fit
    exact ⟨fit.1, reads.wrong l fit.2⟩

end ReadsBody

/-! Frames (Table 11-3, R180) -/

theorem frameBytes_eq (code : Byte) (body : List Byte) :
    frameBytes code body = Config.syncByte :: byteOf (body.length + 4) :: code ::
      (body ++ [hostCrc (Config.syncByte :: byteOf (body.length + 4) :: code :: body)]) := rfl

/-- R173 step 2: a frame that is not longer than 32 bytes is read back. -/
theorem parseFrame_frameBytes (code : Byte) {body : List Byte} (short : body.length ≤ 28) :
    parseFrame (frameBytes code body) = .good code body := by
  have len : (byteOf (body.length + 4)).toNat = body.length + 4 := by
    rw [byteOf, BitVec.toNat_ofNat]
    omega
  rw [frameBytes_eq]
  unfold parseFrame
  dsimp only
  rw [List.dropLast_concat]
  refine if_pos ⟨rfl, by omega, by omega, ?_, List.getLast?_concat⟩
  rw [len, List.length_append]
  rfl

/-- R173 step 2: the body of a good frame is no longer than 28 bytes. -/
theorem body_of_parseFrame {bytes : List Byte} {code : Byte} {body : List Byte} (good : parseFrame bytes = .good code body) :
    body.length ≤ 28 := by
  unfold parseFrame at good
  split at good
  · next rest =>
    split at good
    · next h =>
      obtain ⟨-, -, most, size, last⟩ := h
      cases good
      have filled : rest ≠ [] := by rintro rfl; cases last
      have := List.length_pos_iff.2 filled
      rw [List.length_dropLast]
      omega
    · cases good
  · cases good

/-- R173: a frame is a request write, and the request it holds is the one of its code and body. -/
theorem decodeTransaction_frameBytes (p : Port) (code : Byte) {body : List Byte} (short : body.length ≤ 28) :
    decodeTransaction p (frameBytes code body) = decodeRequest p code body := by
  have write : ¬(frameBytes code body).head? = some Config.readByte := by
    rw [frameBytes_eq, List.head?_cons]
    decide
  rw [decodeTransaction, if_neg write, parseFrame_frameBytes code short]

/-- R173 step 3: a code that is none of the 21. -/
theorem decodeRequest_unknown (p : Port) {code : Byte} (body : List Byte) (h : code.toNat = 0 ∨ 21 < code.toNat) :
    decodeRequest p code body = .badRequest p code body := by
  unfold decodeRequest
  split
  case h_22 => rfl
  all_goals omega

/-- A request whose body is read by `parse` is read back from its frame. -/
theorem ReadsBody.decode_frame {α : Type} {ok : Nat → Bool} {good : α → Prop} {bytes : α → List Byte}
    {parse : List Byte → Sized α} (reads : ReadsBody ok good bytes parse) {p : Port} {code : Byte} {b : Sized α}
    {request : Sized α → Instr} (fit : b.fits ok = true) (h : ∀ a, b = .sized a → good a)
    (decoded : ∀ l, decodeRequest p code l = request (parse l)) :
    decodeTransaction p (frameBytes code (bodyBytes bytes b)) = request b := by
  obtain ⟨short, back⟩ := reads.parse_bodyBytes fit h
  rw [decodeTransaction_frameBytes p code short, decoded, back]

/-- Settles O7: the bytes of a well-formed request are a good frame, whose body `ReadsBody` reads back. -/
theorem transactionsDecodeBack : Obligations.TransactionsDecodeBack := by
  unfold Obligations.TransactionsDecodeBack
  intro c p bytes wf e
  cases c <;> cases e
  case frameError =>
    simp only [Instr.wellFormed, Bool.and_eq_true, decide_eq_true_eq] at wf
    rw [decodeTransaction, if_neg wf.2, wf.1]
  case badRequest =>
    simp only [Instr.wellFormed, Bool.and_eq_true, Bool.or_eq_true, decide_eq_true_eq] at wf
    rw [decodeTransaction_frameBytes p _ wf.1, decodeRequest_unknown p _ wf.2]
  case responseRead n => simp [decodeTransaction]
  case draftOpen => exact ReadsBody.openBody.decode_frame wf (fun _ _ => trivial) fun _ => rfl
  case draftResize => exact ReadsBody.resizeBody.decode_frame wf (fun _ _ => trivial) fun _ => rfl
  case draftSet => exact ReadsBody.setBody.decode_frame wf (fun _ _ => trivial) fun _ => rfl
  case remoteRead => exact ReadsBody.readBody.decode_frame wf (fun _ _ => trivial) fun _ => rfl
  case subscribe => exact ReadsBody.subscribeBody.decode_frame wf (fun _ _ => trivial) fun _ => rfl
  case remoteWrite b =>
    refine ReadsBody.writeBody.decode_frame (b := b) ?_ ?_ fun _ => rfl
    · cases b with
      | sized a => rfl
      | wrongSize l => exact wf
    · rintro a rfl
      simpa only [Instr.wellFormed, Bool.and_eq_true, decide_eq_true_eq] using wf
  case detach | portStatus | draftClear | withdraw | planInfo | chainRestart =>
    exact ReadsBody.noBytes.decode_frame wf (fun _ _ => trivial) fun _ => rfl
  all_goals exact ReadsBody.oneByte.decode_frame wf (fun _ _ => trivial) fun _ => rfl

/-- R173: a good frame is a well-formed command of its port. -/
theorem decodeRequest_wellFormed (p : Port) (code : Byte) {body : List Byte} (short : body.length ≤ 28) :
    (decodeRequest p code body).wellFormed = true ∧ hostPort (decodeRequest p code body) = some p := by
  unfold decodeRequest
  split
  case h_4 => exact ⟨ReadsBody.openBody.fits short, rfl⟩
  case h_6 => exact ⟨ReadsBody.resizeBody.fits short, rfl⟩
  case h_7 => exact ⟨ReadsBody.setBody.fits short, rfl⟩
  case h_18 => exact ⟨ReadsBody.readBody.fits short, rfl⟩
  case h_20 => exact ⟨ReadsBody.subscribeBody.fits short, rfl⟩
  case h_19 =>
    refine ⟨?_, rfl⟩
    cases size : writeSize body.length with
    | true =>
      obtain ⟨a, h, e⟩ := ReadsBody.writeBody.right body size
      simp only [e, Instr.wellFormed, Bool.and_eq_true, decide_eq_true_eq]
      exact h
    | false =>
      have fit := ReadsBody.writeBody.fits short
      rw [ReadsBody.writeBody.wrong body size] at fit ⊢
      exact fit
  case h_22 =>
    refine ⟨?_, rfl⟩
    simp only [Instr.wellFormed, Bool.and_eq_true, Bool.or_eq_true, decide_eq_true_eq]
    exact ⟨short, by grind⟩
  case h_2 | h_3 | h_9 | h_12 | h_15 | h_17 => exact ⟨ReadsBody.noBytes.fits short, rfl⟩
  all_goals exact ⟨ReadsBody.oneByte.fits short, rfl⟩

/-- Settles O8: a transaction is a response read, a frame that fails step 2 of R173, or a good one, whose body fits a frame. -/
theorem everyTransactionIsACommand : Obligations.EveryTransactionIsACommand := by
  unfold Obligations.EveryTransactionIsACommand
  intro p bytes
  unfold decodeTransaction
  split
  · exact ⟨rfl, rfl⟩
  · next write =>
    split
    · next bad =>
      refine ⟨?_, rfl⟩
      simp only [Instr.wellFormed, Bool.and_eq_true, decide_eq_true_eq]
      exact ⟨bad, write⟩
    · next good => exact decodeRequest_wellFormed p _ (body_of_parseFrame good)

end Sys2Proof.Machine


/-! ### What a request frame can do, and the frames that reach no owner (R171, R173, R174, R176) -/

namespace Sys2Proof.Machine

/-- R173 steps 4 to 6: a request of a port, as the frame its owner takes: `sized` is whether its body has the size of its
code. The owner keeps what `Owned` says, and what the request sets off stays within a trail's reach. -/
inductive RequestForm (c : Instr) (p : Port) (sized : Bool) : Prop where
  | intro {α : Type} {b : Sized α} {owner : α → State → State × Response} {after : State → State}
      (size : b.isSized = sized)
      (runs : ∀ s, exec c s = s.whenReleased (State.requestThen (takenDetached c) p b owner after))
      (owned : ∀ a s, Owned s p (owner a s))
      (sets : ∀ s, TrailFrame s (after s))

/-- Table 10-4: the owners of the 21 requests. -/
theorem requestForm {c : Instr} {p : Port} {sized : Bool} (h : requestOf c = some (p, sized)) : RequestForm c p sized := by
  have quiet (s : State) : TrailFrame s (id s) := .refl s
  have forms (s : State) : TrailFrame s s.formIfDue := (formIfDue_frame s).toTrailFrame
  cases c <;> cases h
  case attach => exact ⟨rfl, fun _ => rfl, takeAttach_owned p, quiet⟩
  case detach => exact ⟨rfl, fun _ => rfl, takeDetach_owned p, forms⟩
  case portStatus => exact ⟨rfl, fun _ => rfl, takePortStatus_owned p, quiet⟩
  case draftOpen => exact ⟨rfl, fun _ => rfl, takeDraftOpen_owned p, quiet⟩
  case draftClose => exact ⟨rfl, fun _ => rfl, takeDraftClose_owned p, quiet⟩
  case draftResize => exact ⟨rfl, fun _ => rfl, takeDraftResize_owned p, quiet⟩
  case draftSet => exact ⟨rfl, fun _ => rfl, takeDraftSet_owned p, quiet⟩
  case draftDrop => exact ⟨rfl, fun _ => rfl, takeDraftDrop_owned p, quiet⟩
  case draftClear => exact ⟨rfl, fun _ => rfl, takeDraftClear_owned p, quiet⟩
  case draftView => exact ⟨rfl, fun _ => rfl, takeDraftView_owned p, quiet⟩
  case commit => exact ⟨rfl, fun _ => rfl, takeCommit_owned p, forms⟩
  case withdraw => exact ⟨rfl, fun _ => rfl, takeWithdraw_owned p, quiet⟩
  case streamInfo => exact ⟨rfl, fun _ => rfl, takeStreamInfo_owned p, quiet⟩
  case listStreams => exact ⟨rfl, fun _ => rfl, takeListStreams_owned p, quiet⟩
  case planInfo => exact ⟨rfl, fun _ => rfl, takePlanInfo_owned p, quiet⟩
  case chainInfo => exact ⟨rfl, fun _ => rfl, takeChainInfo_owned p, quiet⟩
  case chainRestart => exact ⟨rfl, fun _ => rfl, takeChainRestart_owned p, quiet⟩
  case remoteRead => exact ⟨rfl, fun _ => rfl, fun _ => takeRemote_owned p _, quiet⟩
  case remoteWrite => exact ⟨rfl, fun _ => rfl, fun _ => takeRemote_owned p _, quiet⟩
  case subscribe => exact ⟨rfl, fun _ => rfl, takeSubscribe_owned p, quiet⟩
  case readQueue => exact ⟨rfl, fun _ => rfl, takeReadQueue_owned p, quiet⟩

/-- A transaction of a host port is a response read, a frame that holds no request, or a request. -/
theorem hostPort_cases {c : Instr} {p : Port} (h : hostPort c = some p) :
    (∃ n, c = .responseRead p n) ∨ (∃ bytes, c = .frameError p bytes) ∨ (∃ code body, c = .badRequest p code body)
      ∨ ∃ sized, requestOf c = some (p, sized) := by
  cases c <;> cases h
  case responseRead => exact .inl ⟨_, rfl⟩
  case frameError => exact .inr (.inl ⟨_, rfl⟩)
  case badRequest => exact .inr (.inr (.inl ⟨_, _, rfl⟩))
  all_goals exact .inr (.inr (.inr ⟨_, rfl⟩))

/-! A frame at a port with a full slot, and at one that listens -/

theorem whenReleased_high {s : State} (high : s.resetHigh = true) (f : State → State) : s.whenReleased f = .next (f s) :=
  congrArg Host.Outcome.next (if_pos high)

/-- R173 step 1. -/
theorem refuse_full {s : State} {p : Port} {r : Response} (full : (s.port p).slot = some r) (st : Status) :
    s.refuse p st = s.setPort p (s.port p).overran := by
  rw [State.refuse, full]

theorem respond_refused {s : State} {p : Port} {st : Status} (refuses : st.accepts = false) :
    s.respond p (reply st) = s.refused p st :=
  congrArg (s.setPort p) (respond_refusing _ _ refuses)

theorem respond_accepted {s : State} {p : Port} {r : Response} (accepts : r.status.accepts = true) :
    s.respond p r = s.accepted p r :=
  congrArg (s.setPort p) (respond_accepting _ _ accepts)

/-- R173 steps 2 and 3. -/
theorem refuse_empty {s : State} {p : Port} (empty : (s.port p).slot = none) {st : Status} (refuses : st.accepts = false) :
    s.refuse p st = s.refused p st := by
  rw [State.refuse, empty]
  exact respond_refused refuses

/-- What a request of port `p` on `s` answered with `r` leaves: the response in the slot, the overrun flag as it was; after a
refusal nothing else is changed, after OK or ACCEPTED the lease of a session is renewed. -/
structure RequestAnswered (s : State) (p : Port) (r : Response) (t : State) : Prop where
  slot : (t.port p).slot = some r
  overrun : (t.port p).overrun = (s.port p).overrun
  unchanged : r.status.accepts = false → t = s.setPort p { s.port p with slot := some r }
  renewed : r.status.accepts = true → t.attached p = true → 1 ≤ (t.port p).lease →
    (t.port p).leaseCount = some ((t.port p).lease * 1024)

theorem RequestAnswered.refused (s : State) (p : Port) {r : Response} (refuses : r.status.accepts = false) :
    RequestAnswered s p r (s.setPort p { s.port p with slot := some r }) where
  slot := by rw [State.port_setPort_same]
  overrun := by rw [State.port_setPort_same]
  unchanged _ := rfl
  renewed accepts := by rw [refuses] at accepts; cases accepts

theorem RequestAnswered.accepted {s t u : State} {p : Port} {r : Response} (accepts : r.status.accepts = true)
    (overrun : (t.port p).overrun = (s.port p).overrun) (ports : u.ports = (t.accepted p r).ports) :
    RequestAnswered s p r u := by
  have port : u.port p = (t.port p).accepting r := (congrArg (·.get p) ports).trans (State.port_setPort_same t p _)
  constructor
  case slot => rw [port]; rfl
  case overrun => rw [port]; exact overrun
  case unchanged => intro refuses; rw [accepts] at refuses; cases refuses
  case renewed =>
    intro _ attached lease
    rw [State.attached, port] at attached
    rw [port] at lease ⊢
    exact if_pos ⟨eq_of_beq attached, lease⟩

section
variable {α : Type} {open? : Bool} {p : Port} {b : Sized α} {owner : α → State → State × Response}
  {after : State → State} {s : State}

/-- R173 step 4. -/
theorem takeRequest_detached (detached : s.attached p = false) (closed : open? = false) :
    s.takeRequest open? p b owner = (s, reply .notAttached) :=
  if_pos ⟨detached, closed⟩

/-- R173 step 5. -/
theorem takeRequest_wrongSize (taken : s.attached p = true ∨ open? = true) (wrong : b.isSized = false) :
    s.takeRequest open? p b owner = (s, reply .badValue) := by
  cases b with
  | sized a => cases wrong
  | wrongSize l => rcases taken with h | h <;> simp [State.takeRequest, h]

/-- R173 step 6. -/
theorem takeRequest_sized (taken : s.attached p = true ∨ open? = true) (a : α) :
    s.takeRequest open? p (.sized a) owner = owner a s := by
  rcases taken with h | h <;> simp [State.takeRequest, h]

/-- R174, R176: a request that its owner or the Port Interface refuses. -/
theorem requestThen_refuses {r : Response} (empty : (s.port p).slot = none)
    (answer : s.takeRequest open? p b owner = (s, r)) (refuses : r.status.accepts = false) :
    s.requestThen open? p b owner after = s.setPort p { s.port p with slot := some r } := by
  rw [State.requestThen, empty]
  simp only [answer, refuses, Bool.false_eq_true, if_false]
  exact congrArg (s.setPort p) (respond_refusing _ r refuses)

/-- R171, R174, R176: a request that its owner accepts, and what it sets off after its response. -/
theorem requestThen_accepts {t : State} {r : Response} (empty : (s.port p).slot = none)
    (answer : s.takeRequest open? p b owner = (t, r)) (accepts : r.status.accepts = true) :
    s.requestThen open? p b owner after = after (t.accepted p r) := by
  rw [State.requestThen, empty]
  simp only [answer, accepts, if_true]
  rw [respond_accepted accepts]

/-- R171, R173, R174, R176: a request of a port that listens is answered. -/
theorem requestThen_answered (owned : ∀ a, Owned s p (owner a s)) (sets : ∀ t, TrailFrame t (after t))
    (empty : (s.port p).slot = none) : ∃ r, RequestAnswered s p r (s.requestThen open? p b owner after) := by
  obtain ⟨⟨t, r⟩, answer⟩ : ∃ x, s.takeRequest open? p b owner = x := ⟨_, rfl⟩
  have own : Owned s p (t, r) := answer ▸ takeRequest_owned open? p b owner s owned
  refine ⟨r, ?_⟩
  cases status : r.status.accepts with
  | false =>
    cases own.refused status
    rw [requestThen_refuses empty answer status]
    exact .refused _ p status
  | true =>
    rw [requestThen_accepts empty answer status]
    exact .accepted status own.overrun (sets _).ports

end

/-- Settles O10: the owners of the 21 requests keep `Owned`. -/
theorem refusedRequestsChangeNothing : Obligations.RefusedRequestsChangeNothing := by
  unfold Obligations.RefusedRequestsChangeNothing
  intro c p sized s ⟨high, empty⟩ request
  obtain ⟨-, runs, owned, sets⟩ := requestForm request
  obtain ⟨r, answered⟩ := requestThen_answered (fun a => owned a s) sets empty
  refine ⟨_, r, (runs s).trans (whenReleased_high high _), answered.slot, answered.overrun, fun notOk notAccepted =>
    answered.unchanged ?_, fun accepts => answered.renewed ((accepts_iff _).2 accepts)⟩
  exact Bool.eq_false_of_not_eq_true fun accepts => ((accepts_iff _).1 accepts).elim notOk notAccepted

/-- Settles O9: steps 1 to 5 of R173 come before the owner. -/
theorem framesRefusedBeforeOwner : Obligations.FramesRefusedBeforeOwner := by
  unfold Obligations.FramesRefusedBeforeOwner
  intro c p s high host notRead
  rcases hostPort_cases host with ⟨n, rfl⟩ | ⟨bytes, rfl⟩ | ⟨code, body, rfl⟩ | ⟨sized, request⟩
  · exact absurd rfl (notRead n)
  · refine ⟨fun r full => (whenReleased_high high _).trans (congrArg _ (refuse_full full _)), fun empty =>
      ⟨fun _ => (whenReleased_high high _).trans (congrArg _ (refuse_empty empty rfl)), nofun, nofun⟩⟩
  · refine ⟨fun r full => (whenReleased_high high _).trans (congrArg _ (refuse_full full _)), fun empty =>
      ⟨nofun, fun _ => (whenReleased_high high _).trans (congrArg _ (refuse_empty empty rfl)), nofun⟩⟩
  · obtain ⟨size, runs, -, -⟩ := requestForm request
    rw [runs, whenReleased_high high]
    refine ⟨fun r full => congrArg _ (requestThen_full _ p _ _ _ s r full), fun empty => ⟨?_, ?_, fun _ same => ?_⟩⟩
    · rintro ⟨bytes, rfl⟩; cases request
    · rintro ⟨code, body, rfl⟩; cases request
    · cases request.symm.trans same
      exact ⟨fun detached closed => congrArg _ (requestThen_refuses empty (takeRequest_detached detached closed) rfl),
        fun taken wrong => congrArg _ (requestThen_refuses empty (takeRequest_wrongSize taken (size.trans wrong)) rfl)⟩

end Sys2Proof.Machine


/-! ### Response reads, and the requests of a session (R169, R170, R174, R178, R180) -/

namespace Sys2Proof.Machine

/-- Settles O12: a read transaction is `PortContext.readOut` of the slot's frame, or of the empty frame. -/
theorem responseReadEmptiesSlot : Obligations.ResponseReadEmptiesSlot := by
  unfold Obligations.ResponseReadEmptiesSlot
  intro p n s high
  have read : exec (.responseRead p n) s = .next (s.setPort p ((s.port p).readOut n)) :=
    whenReleased_high high fun s => s.setPort p ((s.port p).readOut n)
  rw [read, PortContext.readOut]
  split
  · next r full =>
    simp only [full]
    split
    · next whole => rw [List.take_of_length_le whole]; rfl
    · rfl
  · next empty =>
    simp only [empty]
    rfl

section
variable {α : Type} {p : Port} {a : α} {owner : α → State → State × Response} {s t : State} {r : Response}

/-- A request that is taken while DETACHED, and that its owner accepts. -/
theorem openRequest_accepted (listens : s.listens p) (answer : owner a s = (t, r)) (accepts : r.status.accepts = true) :
    s.whenReleased (State.request true p (.sized a) owner) = .next (t.accepted p r) :=
  (whenReleased_high listens.1 _).trans (congrArg _
    (requestThen_accepts listens.2 ((takeRequest_sized (.inr rfl) a).trans answer) accepts))

/-- A request that is taken while DETACHED, and that its owner refuses. -/
theorem openRequest_refused {st : Status} (listens : s.listens p) (answer : owner a s = (s, reply st))
    (refuses : st.accepts = false) :
    s.whenReleased (State.request true p (.sized a) owner) = .next (s.refused p st) :=
  (whenReleased_high listens.1 _).trans (congrArg _
    (requestThen_refuses listens.2 ((takeRequest_sized (.inr rfl) a).trans answer) refuses))

end

/-- R169: the lease that ATTACH gives stands at its full length. -/
theorem accepting_attach (lease : Nat) (c : PortContext) (r : Response) :
    (c.attach lease).accepting r = { c.attach lease with slot := some r } := by
  unfold PortContext.accepting PortContext.attach fullLease
  by_cases none : lease = 0
  · simp [none]
  · simp [none, Nat.one_le_iff_ne_zero, Config.leaseUnit]

/-- Settles O13: the two answers of `State.takeAttach`. -/
theorem attachOpensSession : Obligations.AttachOpensSession := by
  unfold Obligations.AttachOpensSession
  intro p b s listens
  split
  · next attached => exact openRequest_refused listens (if_pos attached) rfl
  · next detached =>
    refine (openRequest_accepted listens (if_neg detached) rfl).trans ?_
    rw [State.accepted, State.port_setPort_same, accepting_attach]
    simp [State.setPort, Tab.set_set_same, PortContext.attach, nextSession, fullLease, Config.leaseUnit]

/-- R178: the lease that PORT_STATUS reports is the one its own response renews. -/
theorem renewed_ok_leaseCount (s : State) (p : Port) :
    ((s.port p).renewed .ok).leaseCount
      = if s.attached p = true ∧ 1 ≤ (s.port p).lease then some ((s.port p).lease * 1024) else (s.port p).leaseCount := by
  simp only [State.attached, beq_iff_eq]
  exact congrArg PortContext.leaseCount (respond_accepting (s.port p) (reply .ok) rfl)

/-- Settles O17: the body is read from the registers before the response renews the lease. -/
theorem portStatusReportsPort : Obligations.PortStatusReportsPort := by
  unfold Obligations.PortStatusReportsPort
  intro p s listens
  refine (openRequest_accepted listens (r := { status := .ok, body := .portStatus (s.portStatusBody p) }) rfl rfl).trans ?_
  rw [State.portStatusBody, renewed_ok_leaseCount]
  rfl

/-! The row LEASE_EXPIRY (R171, R172) -/

theorem leaseEnds_iff (s : State) (p : Port) :
    s.leaseEnds p = true ↔ s.attached p = true ∧ ∃ n, (s.port p).leaseCount = some n ∧ n ≤ 1 := by
  rw [State.leaseEnds, Bool.and_eq_true]
  cases (s.port p).leaseCount <;> simp

/-- A cycle start that begins leaves the leases. -/
theorem leaseEnds_openCycle (s : State) (p : Port) : s.openCycle.leaseEnds p = s.leaseEnds p := by
  simp only [State.leaseEnds, State.attached, State.port, openCycle_ports]

theorem leaseExpiry_due {p : Port} {s : State} (high : s.resetHigh = true) (due : s.leaseEnds p = true)
    (notMade : s.cycle.made (.lease p) = false) :
    exec (.leaseExpiry p) s = .next ((s.openCycle.expireLease p).noteAct (.lease p)) :=
  (whenReleased_high high _).trans (congrArg _ (actAlone_due ((leaseEnds_openCycle s p).trans due)
    ((openCycle_made s _).trans notMade)))

theorem leaseExpiry_stays {p : Port} {s : State} (high : s.resetHigh = true)
    (stays : ¬s.leaseEnds p = true ∨ s.cycle.made (.lease p) = true) : exec (.leaseExpiry p) s = .next s := by
  rw [← leaseEnds_openCycle, ← openCycle_made] at stays
  exact (whenReleased_high high _).trans (congrArg _ (actAlone_stays stays))

/-- Settles O14: the owner of DETACH accepts, and a lease ends where `State.leaseEnds` says so. -/
theorem sessionsEndOnDetachAndExpiry : Obligations.SessionsEndOnDetachAndExpiry := by
  unfold Obligations.SessionsEndOnDetachAndExpiry
  intro p s high
  have runsOn (h : s.attached p = true → ∀ n, (s.port p).leaseCount = some n → 2 ≤ n) :
      exec (.leaseExpiry p) s = .next s := by
    refine leaseExpiry_stays high (.inl fun ends => ?_)
    obtain ⟨attached, n, count, last⟩ := (leaseEnds_iff s p).1 ends
    have := h attached n count
    omega
  refine ⟨fun empty attached => ?_, fun n attached count last notMade => ?_, fun made => leaseExpiry_stays high (.inr made),
    fun n count more => ?_, fun count => ?_, fun detached => ?_⟩
  · exact requestThen_accepted false p () (State.takeDetach p) State.formIfDue s (s.endSession p .detach) (reply .ok)
      ⟨high, empty, attached⟩ rfl rfl
  · exact leaseExpiry_due high ((leaseEnds_iff s p).2 ⟨attached, n, count, last⟩) notMade
  · exact runsOn fun _ m count' => by cases count.symm.trans count'; exact more
  · exact runsOn fun _ m count' => by cases count.symm.trans count'
  · exact runsOn fun attached => by rw [detached] at attached; cases attached

end Sys2Proof.Machine


/-! ### The lease of a port at a cycle start (R171) -/

namespace Sys2Proof.Machine

theorem firstBringUp_ports (s : State) : s.firstBringUp.ports = s.ports := by
  unfold State.firstBringUp
  split <;> rfl

theorem fill_ports (c : Option Client) (s : State) : (s.fill c).1.ports = s.ports := by
  unfold State.fill
  split
  · rfl
  · rfl
  · exact (sendChain_frame _ s).ports
  · exact (sendFetch_frame s).ports
  · exact (sendRemote_frame _ _).ports

theorem grantTo_ports (c : Option Client) (s : State) : (s.grantTo c).ports = s.ports := by
  have put (m : ControlMsg) (t : State) : (t.putMessage c m).ports = t.ports := rfl
  rw [State.grantTo, (tickBringUp_frame _).ports, put, fill_ports]

theorem grantSlot_ports (s : State) : s.grantSlot.ports = s.ports := by
  rw [State.grantSlot, grantTo_ports, (headChecks_frame s).ports]

/-- The only act of a cycle start that touches a port is its own lease. -/
theorem runAct_port (m : Tab Sample 64) (s : State) {a : CycleAct} {p : Port} (other : a ≠ .lease p) :
    (s.runAct m a).port p = s.port p := by
  have of_ports {t : State} (e : t.ports = s.ports) : t.port p = s.port p := congrArg (·.get p) e
  cases a with
  | lease q => exact tickLease_others q p s fun e => other (e ▸ rfl)
  | switch => exact of_ports (switchCycle_frame s).ports
  | probe => exact of_ports (tickProbe_frame s).ports
  | slot => exact of_ports (grantSlot_ports s)
  | lead => exact of_ports (firstBringUp_ports s)

/-- Acts that leave out the lease of a port leave the port. -/
theorem runActs_port (m : Tab Sample 64) {l : List CycleAct} {p : Port} (other : .lease p ∉ l) (s : State) :
    (l.foldl (State.runAct m) s).port p = s.port p :=
  foldl_frame_mem (R := fun s t : State => t.port p = s.port p) (fun _ => rfl) (fun a b => b.trans a)
    (fun s _ ha => runAct_port m s fun e => other (e ▸ ha)) s

/-- R171: acts that name the lease of a port once make of the port what that act makes of it. -/
theorem runActs_port_once (m : Tab Sample 64) {l : List CycleAct} {p : Port} (once : l.Nodup) (named : .lease p ∈ l)
    (s : State) :
    ∃ t : State, t.port p = s.port p ∧ (l.foldl (State.runAct m) s).port p = (t.tickLease p).port p := by
  obtain ⟨before, after, rfl⟩ := List.append_of_mem named
  have apart : .lease p ∉ before ++ after := (List.nodup_middle.1 once).notMem
  rw [List.mem_append, not_or] at apart
  exact ⟨before.foldl (State.runAct m) s, runActs_port m apart.1 s, by
    rw [List.foldl_append, List.foldl_cons, runActs_port m apart.2]
    rfl⟩

/-- R171: a lease with more to run. -/
theorem tickLease_counts {s : State} {p : Port} {n : Nat} (attached : s.attached p = true)
    (count : (s.port p).leaseCount = some n) (more : 2 ≤ n) :
    (s.tickLease p).port p = { s.port p with leaseCount := some (n - 1) } := by
  obtain ⟨-, -, k, count', last⟩ | ⟨k, -, count', -, ticks⟩ | ⟨-, detached | none⟩ := tickLease_cases p s
  · cases count.symm.trans count'
    omega
  · cases count.symm.trans count'
    rw [ticks, State.port_setPort_same]
  · rw [detached] at attached; cases attached
  · cases count.symm.trans none

theorem mem_actsLeft {o : List CycleAct} {s : State} {a : CycleAct} : a ∈ s.actsLeft o ↔ s.cycle.made a = false := by
  rw [State.actsLeft, List.mem_filter, Bool.not_eq_true', and_iff_right (mem_actsOf o a)]

theorem nextCycle_port (m : Tab Sample 64) (o : List CycleAct) (s : State) (p : Port) :
    (s.nextCycle m o).port p = ((s.openCycle.actsLeft o).foldl (State.runAct m) s.openCycle).port p := rfl

/-- Settles O16: of the acts that are left, a port's own lease falls once, or not at all. -/
theorem leaseCountsDownAtCycleStart : Obligations.LeaseCountsDownAtCycleStart := by
  unfold Obligations.LeaseCountsDownAtCycleStart
  intro m o p n s high attached count more
  have opened : s.openCycle.port p = s.port p := congrArg (·.get p) (openCycle_ports s)
  refine ⟨_, whenReleased_high high _, ?_⟩
  rw [nextCycle_port]
  split
  · next made =>
    rw [runActs_port m ?_, opened]
    rw [mem_actsLeft, openCycle_made, made]
    nofun
  · next notMade =>
    have left : CycleAct.lease p ∈ s.openCycle.actsLeft o := by
      rw [mem_actsLeft, openCycle_made]
      exact Bool.eq_false_of_not_eq_true notMade
    obtain ⟨t, same, ticked⟩ :=
      runActs_port_once m (l := s.openCycle.actsLeft o) ((actsOf_nodup o).filter _) left s.openCycle
    rw [opened] at same
    rw [ticked, tickLease_counts (n := n) (by rwa [State.attached, same]) (by rwa [same]) more, same]

end Sys2Proof.Machine


/-! ### What a session end settles (R13, R54, R147, R166, R167, Table 10-2) -/

namespace Sys2Proof.Machine

/-! The draft (R54) -/

/-- The draft of a port after its session end. -/
def Draft.settled (d : Draft) : Draft :=
  match d.state with
  | .empty => d
  | .opened => Draft.empty
  | .queued => Draft.empty
  | .active => { d with ended := true }

/-- Whether the session end discards the draft. -/
abbrev Draft.dropped (d : Draft) : Prop := d.state = .opened ∨ d.state = .queued

theorem Draft.settled_of_empty {d : Draft} (h : d.state = .empty) : d.settled = d := by simp only [Draft.settled, h]

theorem Draft.settled_of_active {d : Draft} (h : d.state = .active) : d.settled = { d with ended := true } := by
  simp only [Draft.settled, h]

theorem Draft.settled_of_dropped {d : Draft} (h : d.dropped) : d.settled = Draft.empty := by
  rcases h with h | h <;> simp only [Draft.settled, h]

theorem draft_settleDraft_self (s : State) (p : Port) : (s.settleDraft p).draft p = (s.draft p).settled := by
  unfold State.settleDraft
  split
  · next e => exact (Draft.settled_of_empty e).symm
  · next e => rw [draft_discardDraft, if_pos rfl, Draft.settled_of_dropped (.inl e)]
  · next e => rw [draft_discardDraft, if_pos rfl, Draft.settled_of_dropped (.inr e)]
  · next e => rw [State.draft_setDraft_same, Draft.settled_of_active e]

theorem draft_settleDraft_other (s : State) {p q : Port} (other : q ≠ p) : (s.settleDraft p).draft q = s.draft q := by
  unfold State.settleDraft
  split
  · rfl
  · rw [draft_discardDraft, if_neg other]
  · rw [draft_discardDraft, if_neg other]; rfl
  · rw [State.draft_setDraft, if_neg other]

theorem settleDraft_commitQueue (s : State) (p : Port) :
    (s.settleDraft p).commits
      = if (s.draft p).state = .queued then s.commits.filter (fun c => c.port != p) else s.commits := by
  unfold State.settleDraft
  split
  · next e => rw [e]; rfl
  · next e => rw [e, (discardDraft_frame s p).commits]; rfl
  · next e => rw [e, (discardDraft_frame _ p).commits]; rfl
  · next e => rw [e]; rfl

theorem settleDraft_fetch (s : State) (p : Port) : (s.settleDraft p).fetch = s.fetch := by
  unfold State.settleDraft
  split
  · rfl
  · exact (discardDraft_frame s p).fetch
  · exact (discardDraft_frame (s.dropCommit p) p).fetch
  · rfl

theorem stream_settleDraft_of_opens {s : State} {p : Port} {h : Handle} (dropped : (s.draft p).dropped)
    (opens : (s.draft p).opens h) : (s.settleDraft p).stream h = Stream.free := by
  have named : (s.draft p).entries.any (fun e => e.opens? == some h) = true := by
    simpa only [Draft.opens, List.any_eq_true, beq_iff_eq] using opens
  rcases dropped with e | e <;> rw [State.settleDraft, e]
  · exact (stream_discardDraft s p h).trans (if_pos named)
  · exact (stream_discardDraft (s.dropCommit p) p h).trans (if_pos named)

theorem stream_settleDraft_of_not_opens {s : State} {p : Port} {h : Handle}
    (kept : (s.draft p).dropped → ¬(s.draft p).opens h) : (s.settleDraft p).stream h = s.stream h := by
  have unnamed (dropped : (s.draft p).dropped) : ¬(s.draft p).entries.any (fun e => e.opens? == some h) = true := by
    simpa only [Draft.opens, List.any_eq_true, beq_iff_eq] using kept dropped
  unfold State.settleDraft
  split
  · rfl
  · next e => exact (stream_discardDraft s p h).trans (if_neg (unnamed (.inl e)))
  · next e => exact (stream_discardDraft (s.dropCommit p) p h).trans (if_neg (unnamed (.inr e)))
  · rfl

/-! The streams (R13) -/

/-- R13: what the end of a session makes of a record. -/
def Stream.leftBy (p : Port) (session : Nat) (r : Stream) : Stream :=
  if r.state ≠ .free ∧ r.owner = some (p, session) ∧ r.orphan = false then
    { r with
      orphan := true
      mark := if (r.state = .live ∨ r.state = .suspended) ∧ r.mark = .none then .released else r.mark }
  else r

theorem orphaned_eq (r : Stream) :
    r.orphaned = { r with
      orphan := true
      mark := if (r.state = .live ∨ r.state = .suspended) ∧ r.mark = .none then .released else r.mark } := by
  unfold Stream.orphaned Stream.orphanMarked
  simp only [true_and]
  split <;> rfl

theorem stream_orphanStreams (s : State) (p : Port) (k : Nat) (h : Handle) :
    (s.orphanStreams p k).stream h = (s.stream h).leftBy p k := by
  refine (Tab.get_map _ _ h).trans ?_
  simp only [Stream.leftBy, ← orphaned_eq, belongsTo_iff]
  rfl

/-! The session end, block by block -/

section
variable (s : State) (p : Port) (w : EndReason)

theorem port_endSession (q : Port) :
    (s.endSession p w).port q = if q = p then (s.port p).ended w else s.port q :=
  (congrArg (·.get q) (endSession_frame p w s).ports).trans (State.port_setPort s p q _)

theorem draft_endSession_self : (s.endSession p w).draft p = (s.draft p).settled :=
  draft_settleDraft_self (s.setPort p ((s.port p).ended w)) p

theorem draft_endSession_other {q : Port} (other : q ≠ p) : (s.endSession p w).draft q = s.draft q :=
  draft_settleDraft_other (s.setPort p ((s.port p).ended w)) other

theorem endSession_commitQueue :
    (s.endSession p w).commits
      = if (s.draft p).state = .queued then s.commits.filter (fun c => c.port != p) else s.commits :=
  settleDraft_commitQueue (s.setPort p ((s.port p).ended w)) p

theorem endSession_fetch : (s.endSession p w).fetch = s.fetch := settleDraft_fetch (s.setPort p ((s.port p).ended w)) p

/-- The orphans are made of what the end of the draft leaves of the records. -/
theorem stream_endSession (h : Handle) :
    (s.endSession p w).stream h
      = (((s.setPort p ((s.port p).ended w)).settleDraft p).stream h).leftBy p (s.port p).session :=
  stream_orphanStreams ((s.setPort p ((s.port p).ended w)).settleDraft p) p (s.port p).session h

theorem remoteQueue_endSession (q : Port) :
    (s.endSession p w).remoteQueue q = if q = p then [] else s.remoteQueue q := by
  have kept : ((s.setPort p ((s.port p).ended w)).settleDraft p).remote = s.remote := settleDraft_remote p _
  refine (State.remoteQueue_setRemoteQueue _ p q []).trans (if_congr Iff.rfl rfl ?_)
  exact congrArg (·.queues.get q) kept

theorem outstanding_endSession :
    (s.endSession p w).remote.outstanding = s.remote.outstanding.map (Outstanding.endSession p) :=
  congrArg (fun r : RemoteUnit => r.outstanding.map (Outstanding.endSession p))
    (settleDraft_remote p (s.setPort p ((s.port p).ended w)))

end

/-- Settles O15, block by block: the records take `Stream.leftBy` after the draft's end has freed the streams it opened. -/
theorem sessionEndSettlesSession : Obligations.SessionEndSettlesSession := by
  unfold Obligations.SessionEndSettlesSession
  rintro p why s _ rfl
  have frame := endSession_frame p why s
  have engines := endSession_engines p why s
  have router : (s.endSession p why).routerPort p = RouterPort.reset := (routerPort_endSession p p why s).trans (if_pos rfl)
  have draft := draft_endSession_self s p why
  rw [router]
  refine ⟨(port_endSession s p why p).trans (if_pos rfl), rfl, fun q => Tab.get_fill _ _ q, rfl, rfl, rfl,
    (remoteQueue_endSession s p why p).trans (if_pos rfl), outstanding_endSession s p why,
    fun h dropped opens => ?_, fun h kept => ?_,
    fun dropped => draft.trans (Draft.settled_of_dropped dropped), fun empty => draft.trans (Draft.settled_of_empty empty),
    fun active => draft.trans (Draft.settled_of_active active), endSession_commitQueue s p why,
    fun q other => ⟨?_, ?_, ?_, ?_⟩, engines.switch, engines.chain, frame.cycle, frame.arbiter, endSession_fetch s p why⟩
  · rw [stream_endSession, stream_settleDraft_of_opens (s := s.setPort p ((s.port p).ended why)) dropped opens]
    rfl
  · rw [stream_endSession, stream_settleDraft_of_not_opens (s := s.setPort p ((s.port p).ended why))
      fun dropped ⟨e, he, opens⟩ => kept dropped e he opens]
    rfl
  · rw [port_endSession, if_neg other]
  · rw [routerPort_endSession, if_neg other]
  · rw [remoteQueue_endSession, if_neg other]
  · exact draft_endSession_other s p why other

end Sys2Proof.Machine


/-! ### The queue of waiting commands, and the contexts of the other ports (R173, R176, Table 10-1) -/

namespace Sys2Proof.Machine

/-- Settles O1: `step` goes by the queue. -/
theorem stepRunsFrontCommand : Obligations.StepRunsFrontCommand := by
  unfold Obligations.StepRunsFrontCommand
  refine ⟨fun c rest s => rfl, fun s empty => ?_⟩
  rw [step, empty]

/-! What a transaction of a host port leaves -/

theorem HostStep.pending {p : Port} {s t : State} (h : HostStep p s t) : t.pending = s.pending := by
  obtain ⟨c, rfl⟩ | ⟨x, owned, formed⟩ := h
  · rfl
  · exact formed.pending.trans owned.pending

theorem port_setPort_other (s : State) {p q : Port} (other : q ≠ p) (c : PortContext) : (s.setPort p c).port q = s.port q :=
  (State.port_setPort s p q c).trans (if_neg other)

theorem HostStep.port_other {p q : Port} {s t : State} (h : HostStep p s t) (other : q ≠ p) : t.port q = s.port q := by
  obtain ⟨c, rfl⟩ | ⟨⟨u, r⟩, owned, formed⟩ := h
  · exact port_setPort_other s other c
  · calc t.port q
      _ = (u.respond p r).port q := congrArg (·.get q) formed.ports
      _ = u.port q := port_setPort_other u other _
      _ = s.port q := owned.others q other

/-- Settles O11: the owner keeps the other ports, the response goes to the slot of its own port, and a batch formation
touches no port. -/
theorem portContextsAreSeparate : Obligations.PortContextsAreSeparate := by
  unfold Obligations.PortContextsAreSeparate
  intro c p q s t host other e
  exact (exec_hostStep host e).port_other other

/-! The waiting commands (assumptions 3 and 28) -/

/-- The commands that wait do not differ. -/
def WaitingKept (s t : State) : Prop := t.pending = s.pending

theorem WaitingKept.refl (s : State) : WaitingKept s s := rfl

theorem CycleFrame.waitingKept {s t : State} (f : CycleFrame s t) : WaitingKept s t := f.pending

theorem TrailFrame.waitingKept {s t : State} (f : TrailFrame s t) : WaitingKept s t := f.pending

theorem openCycle_pending (s : State) : s.openCycle.pending = s.pending := by
  rcases openCycle_cases s with ⟨same, -⟩ | ⟨-, -, -, -, kept⟩
  · rw [same]
  · exact kept

theorem actAlone_waitingKept {due : State → Bool} {a : CycleAct} {act : State → State} (h : ∀ s, CycleFrame s (act s))
    (s : State) : WaitingKept s (s.actAlone due a act) := by
  obtain ⟨-, -, made⟩ | ⟨-, same⟩ := actAlone_cases due a act s
  · rw [made, noteAct_eq]
    exact (h s.openCycle).pending.trans (openCycle_pending s)
  · rw [same]
    exact .refl s

theorem nextCycle_waitingKept (m : Tab Sample 64) (o : List CycleAct) (s : State) : WaitingKept s (s.nextCycle m o) :=
  (acts_cycleFrame m _ s.openCycle).pending.trans (openCycle_pending s)

theorem exec_waitingKept (c : Instr) {s t : State} (e : exec c s = .next t) : WaitingKept s t := by
  have released {f : State → State} (h : ∀ s, WaitingKept s (f s)) (e : s.whenReleased f = .next t) : WaitingKept s t :=
    whenReleased_keeps .refl h e
  have guarded {c : State → Bool} {f : State → State} (h : ∀ s, TrailFrame s (f s))
      (e : s.whenReleased (State.underGuard c f) = .next t) : WaitingKept s t :=
    released (underGuard_keeps .refl fun s => (h s).waitingKept) e
  have settled (m : Meet) {f : State → State} (h : ∀ s, TrailFrame s (f s)) (s : State) : TrailFrame s ((f s).settleWork m) :=
    (h s).trans (settleWork_frame m _).toTrailFrame
  cases c
  case deviceReset => cases e; rfl
  case resetRelease => cases e; rfl
  case cycleStart m o => exact released (nextCycle_waitingKept m o) e
  case trailArrival up o => exact released (fun s => (arrive_cycleFrame (some up) o s).waitingKept) e
  case receiveWindowClose o => exact released (fun s => (arrive_cycleFrame none o s).waitingKept) e
  case leaseExpiry p => exact released (actAlone_waitingKept (expireLease_cycleFrame p)) e
  case probeDue => exact released (actAlone_waitingKept fun s => (tickProbe_frame s).toCycleFrame) e
  case bringupSeek => exact released (actAlone_waitingKept grantSlot_cycleFrame) e
  case switchCycle => exact released (actAlone_waitingKept fun s => (switchCycle_frame s).toCycleFrame) e
  case batchFormation => exact released (fun s => (formIfDue_frame s).toTrailFrame.waitingKept) e
  case isolationRecovery p => exact guarded (settled .resyncFirst fun s => (recoverHop_frame p s).toTrailFrame) e
  case breakDetected m => exact guarded (settled m breakChain_frame) e
  case quietCountComplete p => exact guarded (fun s => (leaveJoining_frame p s).toTrailFrame) e
  case resyncEntry => exact guarded (fun s => ((moveEntries_frame s).trans (ensureResync_frame _)).toTrailFrame) e
  case prepareTimeout m => exact guarded (settled m fun s => (abandon_frame _ s).toTrailFrame) e
  case settleEnd m => exact guarded (settled m fun s => (settleEnd_frame s).toTrailFrame) e
  all_goals exact (exec_hostStep rfl e).pending

/-- Assumption 32: the arm of every row answers with a next head. -/
theorem exec_completes (c : Instr) (s : State) : ∃ t, exec c s = .next t := by
  cases c <;> exact ⟨_, rfl⟩

/-- Settles O2: every row completes, and none touches the queue (`exec_waitingKept`). -/
theorem everyCommandCompletes : Obligations.EveryCommandCompletes := by
  unfold Obligations.EveryCommandCompletes
  intro c s
  obtain ⟨t, e⟩ := exec_completes c s
  exact ⟨t, e, exec_waitingKept c e⟩

end Sys2Proof.Machine
